-- ==== Sys2Proof/Word.lean ====
section
/-! DEFINITION. The two data widths of the hardware (spec/00_scope.md R6, R9): the 32-bit word and the 8-bit byte. -/

namespace Sys2Proof

/-- A word: 32 bits, unsigned, arithmetic mod 2^32 (R9). -/
abbrev Word := BitVec 32

/-- A byte: 8 bits, unsigned 0 to 255 (R8, R9). -/
abbrev Byte := BitVec 8

end Sys2Proof
end

