-- ==== Sys2Proof/Syntax.lean ====
section
/-! DEFINITION. The instructions: one constructor per row of spec/opcode_table.json. -/

namespace Sys2Proof

/-- The commands (spec/30_encoding.md R62, R66). The only operand is the immediate `L` of `ABSORB`, the unsigned 11-bit
field of bits 10:0 (R61); every other operand is implicit. -/
inductive Instr where
  /-- `INIT` (R81). -/
  | init
  /-- `ABSORB L` (R82); all 2048 values of `L` are encodable, 1025 to 2047 fault when executed (R61). -/
  | absorb (L : BitVec 11)
  /-- `EOS`, the pseudo-command that expands to `ABSORB 0` (R66). -/
  | eos
  /-- `FINAL` (R86). -/
  | final
  /-- `RENDER` (R88). -/
  | render
  deriving DecidableEq, Repr

end Sys2Proof
end

