-- ==== Sys2Proof/WellFormed.lean ====
section
/-! DEFINITION. Which instructions are command words of their own. -/

namespace Sys2Proof

/-- A core command: its word decodes to it. The opcode map has four commands (spec/30_encoding.md R62); `EOS` is the
assembler's other name for `ABSORB 0` and has no word of its own (R66: "the only pseudo-command is `EOS`"; log 12).
The field `L` carries its range in its type, so nothing else has to be checked. -/
def Instr.wf : Instr → Bool
  | .init => true
  | .absorb _ => true
  | .eos => false
  | .final => true
  | .render => true

/-- The core command an instruction stands for: `EOS` expands to `ABSORB 0` (R66). -/
def Instr.expand : Instr → Instr
  | .init => .init
  | .absorb L => .absorb L
  | .eos => .absorb 0
  | .final => .final
  | .render => .render

end Sys2Proof
end

