-- ==== Sys2Proof/Decode.lean ====
section
/-! DEFINITION. Format C, the decoder from a 32-bit command word and the encoder (spec/30_encoding.md R60 to R66). -/

namespace Sys2Proof

/-- Why a word is no command (R64). -/
inductive DecodeReject where
  /-- `op` is 0x0 or 0x5 to 0xF. -/
  | reservedOpcode
  /-- `op` is a command's, and a bit that the command reserves is set. -/
  | reservedBits
  deriving DecidableEq, Repr

/-- Bits 31:28, the opcode (R60). -/
def opField (w : Word) : BitVec 4 := w.extractLsb' 28 4

/-- Bits 27:11, reserved (R60). -/
def zField (w : Word) : BitVec 17 := w.extractLsb' 11 17

/-- Bits 10:0, the length (R60, R61). -/
def lengthField (w : Word) : BitVec 11 := w.extractLsb' 0 11

/-- Format C: `op`, `z` and `L` from the most significant bit down (R60). -/
def formatC (op : BitVec 4) (z : BitVec 17) (L : BitVec 11) : Word := op ++ z ++ L

/-- The opcodes of the four commands (R62). -/
def opInit : BitVec 4 := 0x1#4
def opAbsorb : BitVec 4 := 0x2#4
def opFinal : BitVec 4 := 0x3#4
def opRender : BitVec 4 := 0x4#4

/-- A command without an operand: all of bits 27:0 must be 0 (R62, R64). -/
def decodePlain (i : Instr) (w : Word) : Except DecodeReject Instr :=
  if zField w = 0 ∧ lengthField w = 0 then .ok i else .error .reservedBits

/-- The decoder: total on 32-bit words, needing the word only (R60, R62, R64). The word 0x20000000 is `ABSORB` with
`L = 0`, whose other name is `EOS` (R66; log 12). -/
def decode (w : Word) : Except DecodeReject Instr :=
  if opField w = opInit then decodePlain .init w
  else if opField w = opAbsorb then
    if zField w = 0 then .ok (.absorb (lengthField w)) else .error .reservedBits
  else if opField w = opFinal then decodePlain .final w
  else if opField w = opRender then decodePlain .render w
  else .error .reservedOpcode

/-- The command word of an instruction, from the opcode map (R62); the pseudo-command gets the word of its expansion (R66). -/
def encode : Instr → Word
  | .init => formatC opInit 0 0
  | .absorb L => formatC opAbsorb 0 L
  | .eos => formatC opAbsorb 0 0
  | .final => formatC opFinal 0 0
  | .render => formatC opRender 0 0

/-- A row of the opcode table: a word is the row's command exactly when `(w AND mask) = match` (R62). -/
structure TableRow where
  mask : Word
  pattern : Word
  deriving DecidableEq, Repr

/-- The rows of the opcode table, `match` and `mask` as R62 gives them; the pseudo-command's row fixes all bits. -/
def tableRow : Instr → TableRow
  | .init => ⟨0xFFFFFFFF#32, 0x10000000#32⟩
  | .absorb _ => ⟨0xFFFFF800#32, 0x20000000#32⟩
  | .eos => ⟨0xFFFFFFFF#32, 0x20000000#32⟩
  | .final => ⟨0xFFFFFFFF#32, 0x30000000#32⟩
  | .render => ⟨0xFFFFFFFF#32, 0x40000000#32⟩

/-- What the decoder reads from a word given as the opcode table numbers its bits: every command is exactly one 32-bit
word (R65), so a number with a bit above 31 is no command. -/
def decodeTableWord (nbits w : Nat) : Option Instr :=
  if w % 2 ^ nbits < 2 ^ 32 then
    match decode (BitVec.ofNat 32 (w % 2 ^ nbits)) with
    | .ok i => some i
    | .error _ => none
  else none

end Sys2Proof
end

