-- ==== Sys2Proof/Config.lean ====
section
/-! DEFINITION. What is fixed for the machine: the fixed parameters (spec/00_scope.md R6), the open parameters IV, SIGIV
and K2, which have no value here (R7), the decided parameters kept under their names (R8), and the free values that stand
for what the spec leaves without a value (R28, spec/93_implementation_defined.md U4). -/

namespace Sys2Proof

/-! ### Fixed parameters (R6) -/

/-- `CHUNK_MAX`, the largest chunk and the size of BUF. -/
def Config.chunkMax : Nat := 1024

/-- `SUB`, the size of one sub-block of a full chunk. -/
def Config.subBlock : Nat := 128

/-- `NSUB`, the number of sub-blocks of a full chunk and of mixing slots. -/
def Config.slots : Nat := 8

/-- `PMUL`, the multiplier of the polynomial hash. -/
def Config.hashMultiplier : Word := 127#32

/-- `CRCPOLY`, the reflected CRC-32 polynomial. -/
def Config.crcPoly : Word := 0xEDB88320#32

/-! ### Open parameters (R7): constants with no value; only `IV[i] ≠ 0` is known of them (log 6) -/

/-- `IV[i] - 1`: an arbitrary number below 2^32 - 1, so that `IV[i]` is an arbitrary NON-ZERO word. -/
opaque Config.ivPred : Vector (Fin 4294967295) 8

/-- `IV[0..7]`, the initial values of `acc[0..7]`, "fixed non-zero constants (the hash's 'IV')". -/
def Config.iv : Vector Word 8 := Config.ivPred.map fun n => BitVec.ofNat 32 (n.val + 1)

/-- `SIGIV[0..3]`, the initial values of `sig[0..3]`. -/
opaque Config.sigiv : Vector Word 4

/-- `K2[0..3]`, "a second fixed constant vector". -/
opaque Config.k2 : Vector Word 4

/-- The open parameters as one argument: every unit that reads them takes them as an argument (R7). -/
structure Constants where
  iv : Vector Word 8
  sigiv : Vector Word 4
  k2 : Vector Word 4
  deriving DecidableEq, Repr

/-- The constants of the hardware. -/
def Config.constants : Constants := { iv := Config.iv, sigiv := Config.sigiv, k2 := Config.k2 }

/-! ### Decided parameters (R8) -/

/-- Which byte of a word comes first in the digest image. -/
inductive ByteOrder where
  | little
  | big
  deriving DecidableEq, Repr

/-- `BYTE_ORDER` (R8, R46, decision D6; log 7). -/
def Config.byteOrder : ByteOrder := .little

/-- `WS`, the whitespace set: tab, newline, vertical tab, form feed, carriage return, space (R8, R84, D19; log 8). -/
def Config.whitespace : List Byte := [0x09#8, 0x0A#8, 0x0B#8, 0x0C#8, 0x0D#8, 0x20#8]

/-- The initial value of the CRC working register (R8, R130, D20; log 9). -/
def Config.crcInit : Word := 0xFFFFFFFF#32

/-- The final XOR of the CRC (R8, R130, D20; log 9). -/
def Config.crcFinalXor : Word := 0xFFFFFFFF#32

/-- `BYTE_SIGNED`: bytes are unsigned and zero-extended (R8, D13; log 10). -/
def Config.byteSigned : Bool := false

/-- `HEX_DIGITS`: the ASCII codes of "0123456789abcdef" (R8, R153, D21; log 11). -/
def Config.hexDigits : Vector Byte 16 :=
  #v[0x30#8, 0x31#8, 0x32#8, 0x33#8, 0x34#8, 0x35#8, 0x36#8, 0x37#8, 0x38#8, 0x39#8,
     0x61#8, 0x62#8, 0x63#8, 0x64#8, 0x65#8, 0x66#8]

/-! ### Free values (U4): nothing constrains them -/

/-- What an unspecified 32-bit register at a window offset reads as in host access number `n` (log 3). -/
opaque Config.freeWord (n offset : Nat) : Word

/-- What an unspecified byte at a window offset reads as in host access number `n` (logs 3 and 4). -/
opaque Config.freeByte (n offset : Nat) : Byte

end Sys2Proof
end

