-- ==== Sys2Proof/Machine/State.lean ====
section
/-! DEFINITION. The state of the block (spec/10_state.md R10 to R28), the reasons a step can stop, and reset (R29). -/

namespace Sys2Proof.Machine

/-- `phase`, a 2-bit register with four named values (R20). -/
inductive Phase where
  /-- 0: no computation started since reset. -/
  | idle
  /-- 1: chunks are accepted and processed. -/
  | absorb
  /-- 2: a blank chunk was seen. -/
  | stopped
  /-- 3: signature finalised, rendering allowed. -/
  | final
  deriving DecidableEq, Repr

/-- The three command faults (spec/60_exceptions.md R161). Taking one is a NEXT state (R163), not a stop. -/
inductive CmdFault where
  | illegalCmd
  | badLength
  | badPhase
  deriving DecidableEq, Repr

/-- BUF: the bytes written since reset, as address and byte pairs with strictly rising addresses below 1024
(`Memory.wf`). An address not listed holds no value (R28). -/
abbrev Memory := List Host.Cell

/-- One access of the host to the block's window, by its offset from the base address (spec/20_memory.md R45, R47). -/
inductive HostAccess where
  /-- An 8-bit read. -/
  | read8 (offset : Nat)
  /-- An 8-bit write. -/
  | write8 (offset : Nat) (v : Byte)
  /-- A 32-bit read. -/
  | read32 (offset : Nat)
  /-- A 32-bit write; at CMD it executes a command (R24). -/
  | write32 (offset : Nat) (v : Word)
  /-- An access of any other width, `bits` wide: a host violation (R47). -/
  | otherWidth (offset bits : Nat)
  /-- Hardware reset (R29, R180). -/
  | hardwareReset
  deriving DecidableEq, Repr

/-- What a host read returns. -/
inductive Reply where
  | byte (v : Byte)
  | word (v : Word)
  deriving DecidableEq, Repr

/-- The state. The fields from `acc` to `txt` are the spec's; `bus`, `reply` and `tick` are the model's own (logs 1, 5). -/
structure State where
  /-- The accumulator `acc[0..11]` (R11 to R16). -/
  acc : Vector Word 12
  /-- The signature `sig[0..3]` (R17). -/
  sig : Vector Word 4
  /-- The position counter (R18). -/
  pos : Word
  /-- The running sum (R19). -/
  sum : Word
  /-- The length of the last chunk read (R21). -/
  llast : BitVec 11
  /-- The sequencing state (R20). -/
  phase : Phase
  /-- STATUS.ERR (R23). -/
  err : Bool
  /-- STATUS.ECODE (R23). -/
  ecode : BitVec 4
  /-- The chunk buffer BUF (R25). -/
  buf : Memory
  /-- The text output TXT (R26). -/
  txt : Vector Byte 72
  /-- Model's own: the host accesses still to come, in the one total order of R50. -/
  bus : List HostAccess
  /-- Model's own: what the last host access returned to the host. -/
  reply : Option Reply
  /-- Model's own: the number of host accesses taken; the free values of an access are drawn at it. -/
  tick : Nat
  deriving DecidableEq, Repr

/-- No step of this model faults: the hardware's command faults are next states that set `err` and `ecode`
(R163, R164; log 15), so the type has no constructor. Safe. -/
inductive Fault where
  deriving DecidableEq, Repr

/-- Why a step gives no meaning to what it met. The last four are the host violations to which the spec gives no
behaviour (R47, R49; U5 "refuse"; log 13). -/
inductive Refusal where
  /-- Raised by `exec` for an instruction without a meaning; no arm raises it. Safe. -/
  | notModelled (mnemonic : String)
  /-- Raised by a host access whose width the location does not accept (R47). Safe. -/
  | wrongWidth (offset : Nat)
  /-- Raised by a 32-bit access inside a register, at an offset that is no multiple of 4 (R47). Safe. -/
  | misaligned (offset : Nat)
  /-- Raised by an access to a reserved offset (R49). Safe. -/
  | reservedOffset (offset : Nat)
  /-- Raised by an access at an offset beyond the window of 2048 bytes (R40). Safe. -/
  | outsideWindow (offset : Nat)
  deriving DecidableEq, Repr

/-- The machine right after hardware reset: `phase` = IDLE, `err` = 0, `ecode` = 0 (R29). The other registers have no
value in the spec (R28); they hold the named value 0 (DESIGN CHOICE, log 2), which no command consumes (R29) and no host
read shows (log 3). BUF lists no byte. -/
def State.reset : State where
  acc := Vector.replicate 12 0
  sig := Vector.replicate 4 0
  pos := 0
  sum := 0
  llast := 0
  phase := .idle
  err := false
  ecode := 0
  buf := []
  txt := Vector.replicate 72 0
  bus := []
  reply := none
  tick := 0

end Sys2Proof.Machine
end

