-- ==== Sys2Proof/Machine/Ops.lean ====
section
/-! DEFINITION. The named operations over BUF and the registers, command-fault entry, the checks every command makes
before its effect, and hardware reset as an event. -/

namespace Sys2Proof.Machine

/-! ### BUF as plain data -/

/-- The byte listed at an address; `none` where nothing has written it since reset. -/
def Memory.lookup : Memory → Nat → Option Byte
  | [], _ => none
  | (a, b) :: m, k => if a = k then some b else Memory.lookup m k

/-- Writes one byte, keeping the addresses strictly rising. -/
def Memory.store : Memory → Nat → Byte → Memory
  | [], k, v => [(k, v)]
  | (a, b) :: m, k, v =>
    if k < a then (k, v) :: (a, b) :: m
    else if k = a then (k, v) :: m
    else (a, b) :: Memory.store m k v

/-- The addresses rise strictly from `low` on and stay inside BUF. -/
def Memory.wfFrom (low : Nat) : Memory → Bool
  | [] => true
  | (a, _) :: m => decide (low ≤ a) && decide (a < Config.chunkMax) && Memory.wfFrom (a + 1) m

/-- The canonical form of BUF: strictly rising addresses, all below 1024. An unlisted address holds no value, so no entry
can equal what an unlisted address holds. -/
def Memory.wf (m : Memory) : Bool := Memory.wfFrom 0 m

/-- What a byte of BUF that nothing has written since reset reads as in host access number `n`: a free value
(R28, R188, U4; log 4). -/
def unlistedByte (n k : Nat) : Byte := Config.freeByte n k

/-- `buf[k]`, `MemRead(BUF, k, 1)` (spec/00_scope.md R9). -/
def State.bufByte (s : State) (k : Nat) : Byte := (s.buf.lookup k).getD (unlistedByte s.tick k)

/-- `buf[k] <- v`, `MemWrite(BUF, k, 1, v)` (R9). -/
def State.storeByte (k : Nat) (v : Byte) (s : State) : State := { s with buf := s.buf.store k v }

/-! ### Command faults -/

/-- `ecode` of a command fault (spec/60_exceptions.md R161). -/
def CmdFault.code : CmdFault → BitVec 4
  | .illegalCmd => 1
  | .badLength => 2
  | .badPhase => 3

/-- Fault entry, `raise CmdFault(code)`: `err` and `ecode`, and nothing else (R163). There is no return from a fault but
hardware reset (R165). -/
def State.raiseFault (f : CmdFault) (s : State) : State := { s with err := true, ecode := f.code }

/-- A word that is no command: ignored while `err` = 1 (R80 check 1), else ILLEGAL_CMD (R80 check 2, R64). -/
def illegalCommand (s : State) : State := if s.err then s else s.raiseFault .illegalCmd

/-- Checks 1, 3, 4 and step 5 of R80, in that order, for a word that is a command: halted (R164), bad length, bad phase,
the effect. -/
def gate (lengthOk : Bool) (legal : Phase → Bool) (effect : State → State) (s : State) : State :=
  if s.err then s
  else if !lengthOk then s.raiseFault .badLength
  else if !legal s.phase then s.raiseFault .badPhase
  else effect s

/-! ### Sequencing registers -/

/-- `phase <- p`. -/
def State.setPhase (p : Phase) (s : State) : State := { s with phase := p }

/-- `if L >= 1: llast <- L` (R21, R82). -/
def State.noteLength (L : BitVec 11) (s : State) : State :=
  { s with llast := if L = 0 then s.llast else L }

/-! ### Hardware reset as an event -/

/-- Hardware reset (R29, R180): everything as right after reset; the accesses still to come and the access counter, which
are not the block's, stay (log 14). -/
def State.hardwareReset (s : State) : State :=
  { State.reset with bus := s.bus, reply := s.reply, tick := s.tick }

end Sys2Proof.Machine
end

