-- ==== Sys2Proof/Machine/Operands.lean ====
section
/-! DEFINITION. The operand forms: the byte as a word, and the implicit operands `buf[0:L]` and `buf[0:min(L,4)]`
(spec/20_memory.md R42). -/

namespace Sys2Proof.Machine

/-- `zext_32(b)` (R9); `BYTE_SIGNED` is false (R8, D13). -/
def widen (b : Byte) : Word := if Config.byteSigned then b.signExtend 32 else b.setWidth 32

/-- `buf[0:n]`, the byte sequence `buf[0], ..., buf[n-1]` (R9). -/
def State.chunk (s : State) (n : Nat) : List Byte := (List.range n).map s.bufByte

/-- `min(L, 4)`, the number of leading bytes the signature unit reads (R141, R143). -/
def leadLength (L : BitVec 11) : Nat := min L.toNat 4

/-- `buf[a:b]` of a chunk given as its byte sequence (R9): start inclusive, end exclusive. -/
def byteRange (bytes : List Byte) (a b : Nat) : List Byte := (bytes.drop a).take (b - a)

end Sys2Proof.Machine
end

