-- ==== Sys2Proof/Machine/Checksum.lean ====
section
/-! DEFINITION. The checksum tracker unit (spec/43_checksum.md). -/

namespace Sys2Proof.Machine

/-- `byte_sum(b[0:n])`: the sum of the bytes, reduced mod 256 after each addition (R120). -/
def byteSum (bytes : List Byte) : Byte := bytes.foldl (fun t b => t + b) 0

/-- Step 3 of `ABSORB L`: `sum <- (sum + byte_sum(buf[0:L])) mod 2^32` (R122). A byte sum is a number 0 to 255, whatever
the signedness of bytes is. -/
def State.addByteSum (L : BitVec 11) (s : State) : State :=
  { s with sum := s.sum + (byteSum (s.chunk L.toNat)).setWidth 32 }

/-- Step 5 of `ABSORB L`: `pos <- (pos + L) mod 2^32` (R123). -/
def State.addCount (L : BitVec 11) (s : State) : State := { s with pos := s.pos + L.setWidth 32 }

end Sys2Proof.Machine
end

