-- ==== Sys2Proof/Machine/Crc.lean ====
section
/-! DEFINITION. The CRC-32 accumulator unit (spec/44_crc32.md). -/

namespace Sys2Proof.Machine

/-- One of the eight steps of a byte: shift right, XOR the polynomial when bit 0 was 1 (R130). -/
def crcShift (c : Word) : Word :=
  if c.getLsbD 0 then (c >>> 1) ^^^ Config.crcPoly else c >>> 1

/-- `repeat n times` (R130). -/
def crcShifts : Nat → Word → Word
  | 0, c => c
  | n + 1, c => crcShifts n (crcShift c)

/-- One byte: it enters at bits 7:0, then eight steps (R130). -/
def crcByte (c : Word) (b : Byte) : Word := crcShifts 8 (c ^^^ widen b)

/-- `crc32(b[0:n])` (R130). -/
def crc32 (bytes : List Byte) : Word := bytes.foldl crcByte Config.crcInit ^^^ Config.crcFinalXor

/-- `T[m]`, the entry of the table form (R131): a constant of the hardware, not state (R27). -/
def crcTable (m : Byte) : Word := crcShifts 8 (m.setWidth 32)

/-- `crc32(b[0:n])` in the table form (R131). -/
def crc32ByTable (bytes : List Byte) : Word :=
  bytes.foldl (fun c b => crcTable ((c ^^^ widen b).setWidth 8) ^^^ (c >>> 8)) Config.crcInit ^^^ Config.crcFinalXor

/-- Step 4 of `ABSORB L`: `acc[8] <- acc[8] XOR crc32(buf[0:L])` (R133). -/
def State.xorCrc (L : BitVec 11) (s : State) : State :=
  { s with acc := s.acc.set 8 (s.acc[8] ^^^ crc32 (s.chunk L.toNat)) }

end Sys2Proof.Machine
end

