-- ==== Sys2Proof/Machine/PolyHash.lean ====
section
/-! DEFINITION. The polynomial hash unit (spec/41_polyhash.md). -/

namespace Sys2Proof.Machine

/-- `polyhash(b[0:n])`: `r <- (r * 127 + zext_32(b[k])) mod 2^32` over the bytes in order, from 0 (R100). -/
def polyhash (bytes : List Byte) : Word :=
  bytes.foldl (fun r b => r * Config.hashMultiplier + widen b) 0

end Sys2Proof.Machine
end

