-- ==== Sys2Proof/Machine/Mixer.lean ====
section
/-! DEFINITION. The rotating XOR mixer unit (spec/42_mixer.md). -/

namespace Sys2Proof.Machine

/-- `rotl32(x, c)`, defined for 1 <= c <= 31 (R110); the unit uses the counts 1 to 8 (log 16). -/
def rotl32 (x : Word) (c : Nat) : Word := (x <<< c) ||| (x >>> (32 - c))

/-- Sub-block `i` of a full chunk, `buf[128*i : 128*i + 128]` (R111). -/
def subBlock (bytes : List Byte) (i : Nat) : List Byte :=
  byteRange bytes (Config.subBlock * i) (Config.subBlock * i + Config.subBlock)

/-- One mix step of a slot: XOR first, then rotate left by the slot number plus one (R112, R113, R114). -/
def mixSlot (a h : Word) (slot : Nat) : Word := rotl32 (a ^^^ h) (slot + 1)

/-- `mix_short(L)`: the whole chunk into `acc[0]` (R112). -/
def mixShort (acc : Vector Word 12) (bytes : List Byte) : Vector Word 12 :=
  acc.set 0 (mixSlot acc[0] (polyhash bytes) 0)

/-- `mix_full()`: sub-block `i` into `acc[i]`, i = 0 to 7. "The eight updates are independent of each other", so they are
written side by side (R113). -/
def mixFull (acc : Vector Word 12) (bytes : List Byte) : Vector Word 12 :=
  Vector.ofFn fun i : Fin 12 =>
    if i.val < Config.slots then mixSlot acc[i] (polyhash (subBlock bytes i.val)) i.val else acc[i]

/-- Step 1 of `ABSORB L` on a processed chunk; the path depends on `L` alone (R82, R87). -/
def State.mixStep (L : BitVec 11) (s : State) : State :=
  { s with
    acc := if L.toNat < Config.chunkMax then mixShort s.acc (s.chunk L.toNat) else mixFull s.acc (s.chunk L.toNat) }

end Sys2Proof.Machine
end

