-- ==== Sys2Proof/Machine/Renderer.lean ====
section
/-! DEFINITION. The fixed digest renderer unit (spec/46_renderer.md). -/

namespace Sys2Proof.Machine

/-- Assembly, part of `FINAL`: `acc[9] <- pos`, `acc[10] <- sum`, `acc[11] <- sig[0]` (R150). -/
def State.assemble (s : State) : State :=
  { s with acc := ((s.acc.set 9 s.pos).set 10 s.sum).set 11 s.sig[0] }

/-- Byte `j` of a word in the byte order of the digest image, j = 0 to 3 (R46). -/
def wordByte (w : Word) (j : Nat) : Byte :=
  match Config.byteOrder with
  | .little => w.extractLsb' (8 * j) 8
  | .big => w.extractLsb' (8 * (3 - j)) 8

/-- `image_byte(k) = acc[k div 4][8*(k mod 4) + 7 : 8*(k mod 4)]`, k = 0 to 47 (R151). -/
def imageByte (acc : Vector Word 12) (k : Fin 48) : Byte := wordByte acc[k.val / 4] (k.val % 4)

/-- `hexdigit(v)`, the ASCII code of character `v` of `HEX_DIGITS` (R153). -/
def hexDigit (v : BitVec 4) : Byte := Config.hexDigits[v.toFin]

/-- One of the two characters of a byte, the high nibble first (R154). -/
def hexChar (b : Byte) (second : Bool) : Byte :=
  if second then hexDigit (b.extractLsb' 0 4) else hexDigit (b.extractLsb' 4 4)

/-- The 72 characters of the first 36 image bytes: characters `2*k` and `2*k+1` are byte `k` (R152, R155). -/
def renderedText (acc : Vector Word 12) : Vector Byte 72 :=
  Vector.ofFn fun j : Fin 72 => hexChar (imageByte acc ⟨j.val / 2, by omega⟩) (j.val % 2 == 1)

/-- The output of `RENDER` (R155). -/
def State.renderText (s : State) : State := { s with txt := renderedText s.acc }

end Sys2Proof.Machine
end

