-- ==== Sys2Proof/Machine/Signature.lean ====
section
/-! DEFINITION. The signature tracker unit (spec/45_signature.md). -/

namespace Sys2Proof.Machine

/-- `sig_increment()`: `buf[0] <- (buf[0] + 1) mod 256`, the engine's only write to BUF (R140). -/
def State.sigIncrement (s : State) : State := s.storeByte 0 (s.bufByte 0 + 1)

/-- `sig_mix(L)`: `sig[i] <- sig[i] XOR zext_32(buf[i])` for i < min(L, 4) (R141). -/
def State.sigMix (L : BitVec 11) (s : State) : State :=
  { s with
    sig := Vector.ofFn fun i : Fin 4 =>
      if i.val < leadLength L then s.sig[i] ^^^ widen (s.bufByte i.val) else s.sig[i] }

/-- `tmp[i]` of the finalisation: `K2[i] XOR zext_32(buf[i])` for i < min(llast, 4), else 0 (R143). -/
def State.sigTmp (c : Constants) (s : State) (i : Fin 4) : Word :=
  if i.val < leadLength s.llast then c.k2[i] ^^^ widen (s.bufByte i.val) else 0

/-- `sig_finalise()`: `sig[i] <- sig[i] XOR tmp[i]` (R143). -/
def State.sigFinalise (c : Constants) (s : State) : State :=
  { s with sig := Vector.ofFn fun i : Fin 4 => s.sig[i] ^^^ s.sigTmp c i }

end Sys2Proof.Machine
end

