-- ==== Sys2Proof/Machine/Commands.lean ====
section
/-! DEFINITION. The meanings of the commands (spec/40_commands.md): their effects, and each effect behind the checks of R80. -/

namespace Sys2Proof.Machine

/-! ### INIT -/

/-- The accumulator after `INIT`: `IV[0..7]`, then zeros (R81). -/
def initialAcc (c : Constants) : Vector Word 12 :=
  Vector.ofFn fun i : Fin 12 => if h : i.val < 8 then c.iv[i.val] else 0

/-- The effect of `INIT` (R81). BUF, `err` and `ecode` are not written. -/
def State.initialise (c : Constants) (s : State) : State :=
  { s with
    acc := initialAcc c
    sig := c.sigiv
    pos := 0
    sum := 0
    llast := 0
    txt := Vector.replicate 72 0x00#8
    phase := .absorb }

/-- `INIT` is legal in every phase (R80, R81). -/
def initLegal (_ : Phase) : Bool := true

/-- `INIT` (R81). -/
def execInit (s : State) : Host.Outcome State Fault Refusal :=
  .next (gate true initLegal (State.initialise Config.constants) s)

/-! ### ABSORB and EOS -/

/-- `is_blank(bytes)`: every byte is in the whitespace set; true of the empty sequence (R84). -/
def isBlank (bytes : List Byte) : Bool := bytes.all fun b => Config.whitespace.contains b

/-- The five steps of a processed chunk, in exactly the order of R82 and R185. -/
def State.processChunk (L : BitVec 11) (s : State) : State :=
  let s1 := s.mixStep L
  let s2 := s1.sigIncrement
  let s3 := s2.sigMix L
  let s4 := s3.addByteSum L
  let s5 := s4.xorCrc L
  s5.addCount L

/-- `ABSORB L` in phase ABSORB: note the length, then stop at a blank chunk or process the chunk (R82, R83). -/
def State.absorbChunk (L : BitVec 11) (s : State) : State :=
  let s1 := s.noteLength L
  if isBlank (s1.chunk L.toNat) then s1.setPhase .stopped else s1.processChunk L

/-- The effect of `ABSORB L` in its legal phases: discarded in STOPPED (R85). -/
def State.absorbEffect (L : BitVec 11) (s : State) : State :=
  if s.phase = .stopped then s else s.absorbChunk L

/-- `ABSORB` does not fault in the phases ABSORB and STOPPED (R80). -/
def absorbLegal (p : Phase) : Bool := p == .absorb || p == .stopped

/-- `L` in 1025 to 2047 is BAD_LENGTH (R61, R161). -/
def lengthOk (L : BitVec 11) : Bool := decide (L.toNat ≤ Config.chunkMax)

/-- The command `ABSORB L` behind the checks of R80. -/
def absorbCommand (L : BitVec 11) (s : State) : State :=
  gate (lengthOk L) absorbLegal (State.absorbEffect L) s

/-- `ABSORB L` (R82). -/
def execAbsorb (L : BitVec 11) (s : State) : Host.Outcome State Fault Refusal :=
  .next (absorbCommand L s)

/-- `EOS`, which expands to `ABSORB 0` (R66, R83). -/
def execEos (s : State) : Host.Outcome State Fault Refusal :=
  .next (absorbCommand 0 s)

/-! ### FINAL -/

/-- The effect of `FINAL`: finalise the signature, assemble, enter phase FINAL (R86). -/
def State.finalEffect (c : Constants) (s : State) : State :=
  let s1 := s.sigFinalise c
  let s2 := s1.assemble
  s2.setPhase .final

/-- `FINAL` is legal in the phases ABSORB and STOPPED (R80, R86). -/
def finalLegal (p : Phase) : Bool := p == .absorb || p == .stopped

/-- `FINAL` (R86). -/
def execFinal (s : State) : Host.Outcome State Fault Refusal :=
  .next (gate true finalLegal (State.finalEffect Config.constants) s)

/-! ### RENDER -/

/-- `RENDER` is legal in phase FINAL only (R80, R88). -/
def renderLegal (p : Phase) : Bool := p == .final

/-- `RENDER` (R88). -/
def execRender (s : State) : Host.Outcome State Fault Refusal :=
  .next (gate true renderLegal State.renderText s)

end Sys2Proof.Machine
end

