-- ==== Sys2Proof/Machine/Dispatch.lean ====
section
/-! DEFINITION. One arm per instruction. -/

namespace Sys2Proof.Machine

def exec (i : Instr) (s : State) : Host.Outcome State Fault Refusal :=
  match i with
  | .init => Sys2Proof.Machine.execInit s
  | .absorb L => Sys2Proof.Machine.execAbsorb L s
  | .eos => Sys2Proof.Machine.execEos s
  | .final => Sys2Proof.Machine.execFinal s
  | .render => Sys2Proof.Machine.execRender s

end Sys2Proof.Machine
end

