-- ==== Sys2Proof/Machine/Flags.lean ====
section
/-! DEFINITION. STATUS, the hardware's only flag register (spec/10_state.md R23). There are no carry, zero, overflow or
condition flags: no unit computes one (R23). -/

namespace Sys2Proof.Machine

/-- The value of `phase` (R20). -/
def Phase.code : Phase → BitVec 2
  | .idle => 0
  | .absorb => 1
  | .stopped => 2
  | .final => 3

/-- STATUS from the most significant bit down: 31:8 reserved, 7:4 ECODE, 3 reserved, 2 ERR, 1:0 PHASE (R23). -/
def State.statusWord (s : State) : Word :=
  (0#24 ++ s.ecode ++ 0#1 ++ BitVec.ofBool s.err ++ s.phase.code : BitVec (24 + 4 + 1 + 1 + 2))

end Sys2Proof.Machine
end

