-- ==== Sys2Proof/Machine/Bus.lean ====
section
/-! DEFINITION. The host's accesses to the window: the address map (spec/20_memory.md R45), reads and writes with their
widths and side effects (R47 to R49), and the command port (R24, R80). -/

namespace Sys2Proof.Machine

/-- What stands at an offset of the window (R45). -/
inductive Location where
  | buf (k : Fin 1024)
  | cmd
  | status
  | pos
  | sum
  | llast
  | acc (i : Fin 12)
  | sig (i : Fin 4)
  | txt (k : Fin 72)
  /-- A byte of a register other than its first. -/
  | insideRegister
  | reserved
  | outside
  deriving DecidableEq, Repr

/-- The address map (R45, R40). -/
def locate (offset : Nat) : Location :=
  if hbuf : offset < 0x400 then .buf ⟨offset, hbuf⟩
  else if offset < 0x414 then
    if offset = 0x400 then .cmd
    else if offset = 0x404 then .status
    else if offset = 0x408 then .pos
    else if offset = 0x40C then .sum
    else if offset = 0x410 then .llast
    else .insideRegister
  else if offset < 0x440 then .reserved
  else if hacc : offset < 0x470 then
    if offset % 4 = 0 then .acc ⟨(offset - 0x440) / 4, by omega⟩ else .insideRegister
  else if hsig : offset < 0x480 then
    if offset % 4 = 0 then .sig ⟨(offset - 0x470) / 4, by omega⟩ else .insideRegister
  else if htxt : offset < 0x4C8 then .txt ⟨offset - 0x480, by omega⟩
  else if offset < 0x800 then .reserved
  else .outside

/-- What a register that the spec leaves unspecified after reset reads as: until `INIT` ends phase IDLE, a free value drawn
at this access; from then on, what it holds (R28, R29, U4; log 3). -/
def State.specifiedWord (s : State) (offset : Nat) (v : Word) : Word :=
  if s.phase = .idle then Config.freeWord s.tick offset else v

/-- The same for the 11-bit `llast`: only its 11 bits are unspecified, what LLAST shows above them is 0 (R21, R45). -/
def State.specifiedLength (s : State) (offset : Nat) (v : BitVec 11) : BitVec 11 :=
  if s.phase = .idle then (Config.freeWord s.tick offset).setWidth 11 else v

/-- The same for a byte of TXT. -/
def State.specifiedByte (s : State) (offset : Nat) (v : Byte) : Byte :=
  if s.phase = .idle then Config.freeByte s.tick offset else v

/-- Hands a read's value to the host; a read changes nothing else (R48). -/
def State.putReply (r : Reply) (s : State) : State := { s with reply := some r }

/-- An 8-bit read (R45, R47, R49). -/
def hostRead8 (offset : Nat) (s : State) : Host.Outcome State Fault Refusal :=
  match locate offset with
  | .buf k => .next (s.putReply (.byte (s.bufByte k.val)))
  | .txt k => .next (s.putReply (.byte (s.specifiedByte offset s.txt[k])))
  | .reserved => .refused (.reservedOffset offset)
  | .outside => .refused (.outsideWindow offset)
  | .cmd | .status | .pos | .sum | .llast | .acc _ | .sig _ | .insideRegister => .refused (.wrongWidth offset)

/-- A 32-bit read (R45, R47, R49); STATUS has a value in every state (R29), CMD reads 0 (R24), LLAST is zero-extended in
every state (R21). -/
def hostRead32 (offset : Nat) (s : State) : Host.Outcome State Fault Refusal :=
  match locate offset with
  | .cmd => .next (s.putReply (.word 0))
  | .status => .next (s.putReply (.word s.statusWord))
  | .pos => .next (s.putReply (.word (s.specifiedWord offset s.pos)))
  | .sum => .next (s.putReply (.word (s.specifiedWord offset s.sum)))
  | .llast => .next (s.putReply (.word ((s.specifiedLength offset s.llast).setWidth 32)))
  | .acc i => .next (s.putReply (.word (s.specifiedWord offset s.acc[i])))
  | .sig i => .next (s.putReply (.word (s.specifiedWord offset s.sig[i])))
  | .insideRegister => .refused (.misaligned offset)
  | .reserved => .refused (.reservedOffset offset)
  | .outside => .refused (.outsideWindow offset)
  | .buf _ | .txt _ => .refused (.wrongWidth offset)

/-- A word written to CMD: the checks of R80 and the command's effect. -/
def writeCommand (w : Word) (s : State) : Host.Outcome State Fault Refusal :=
  match decode w with
  | .ok i => exec i s
  | .error _ => .next (illegalCommand s)

/-- An 8-bit write: BUF takes it, TXT drops it (R48). -/
def hostWrite8 (offset : Nat) (v : Byte) (s : State) : Host.Outcome State Fault Refusal :=
  match locate offset with
  | .buf k => .next (s.storeByte k.val v)
  | .txt _ => .next s
  | .reserved => .refused (.reservedOffset offset)
  | .outside => .refused (.outsideWindow offset)
  | .cmd | .status | .pos | .sum | .llast | .acc _ | .sig _ | .insideRegister => .refused (.wrongWidth offset)

/-- A 32-bit write: CMD executes it, the read-only registers drop it (R24, R48). -/
def hostWrite32 (offset : Nat) (v : Word) (s : State) : Host.Outcome State Fault Refusal :=
  match locate offset with
  | .cmd => writeCommand v s
  | .status | .pos | .sum | .llast | .acc _ | .sig _ => .next s
  | .insideRegister => .refused (.misaligned offset)
  | .reserved => .refused (.reservedOffset offset)
  | .outside => .refused (.outsideWindow offset)
  | .buf _ | .txt _ => .refused (.wrongWidth offset)

/-- One host access, complete before the next (R50). -/
def hostAccess (a : HostAccess) (s : State) : Host.Outcome State Fault Refusal :=
  match a with
  | .read8 offset => hostRead8 offset s
  | .write8 offset v => hostWrite8 offset v s
  | .read32 offset => hostRead32 offset s
  | .write32 offset v => hostWrite32 offset v s
  | .otherWidth offset _ => .refused (.wrongWidth offset)
  | .hardwareReset => .next s.hardwareReset

/-- Takes the host's next access off the queue: no reply yet, and a new draw of the free values (logs 1, 5). -/
def State.takeAccess (rest : List HostAccess) (s : State) : State :=
  { s with bus := rest, reply := none, tick := s.tick + 1 }

/-- The offset of CMD (R45). -/
def cmdOffset : Nat := 0x400

/-- The host's next access is the 32-bit write of `w` to CMD. -/
def State.withCommand (w : Word) (s : State) : State :=
  { s with bus := .write32 cmdOffset w :: s.bus }

end Sys2Proof.Machine
end

