-- ==== Sys2Proof/Machine/Step.lean ====
section
/-! DEFINITION. One step: the block takes the host's next access and completes it (spec/20_memory.md R50). -/

namespace Sys2Proof.Machine

/-- One step. With no access to take the block waits (spec/70_reset_and_hazards.md R180; log 1). -/
def step (s : State) : Host.Outcome State Fault Refusal :=
  match s.bus with
  | [] => .next s
  | a :: rest => hostAccess a (s.takeAccess rest)

/-- `s` with a command word, given as the opcode table numbers its bits, as the host's next access: the engine fetches
nothing, a command is the word the host writes to CMD (R22, R52; log 1). -/
def State.withFetchWord (s : State) (nbits w : Nat) : State :=
  s.withCommand (BitVec.ofNat 32 (w % 2 ^ nbits))

end Sys2Proof.Machine
end

