-- ==== Sys2Proof/Safety.lean ====
section
/-! DEFINITION. The terms in which claims are made: faulted and finished states, the invariant of the block, chunks
presented by the host, and a whole computation as a function of the byte stream (spec/40_commands.md R90). -/

namespace Sys2Proof.Machine

/-! ### Faulted and finished -/

/-- "A model must treat a state with `err` = 1 as faulted, never as final" (spec/60_exceptions.md R164). -/
def State.faulted (s : State) : Bool := s.err

/-- A finished computation: phase FINAL and not faulted (R20, R164). -/
def State.finished (s : State) : Bool := !s.faulted && s.phase == .final

/-! ### The invariant -/

/-- What holds in every state the block can be in, from spec/10_state.md R20 to R26 and R30 and
spec/70_reset_and_hazards.md R190: BUF is in canonical form; `ecode` is 0 exactly while `err` is 0 and else one of the
three fault codes; once `INIT` has ended phase IDLE, `llast` is at most 1024; before `FINAL` the words `acc[9..11]` are 0
and TXT is all 0x00; after it they are the count, the sum and `sig[0]`, and TXT is still all 0x00 or the digest text. -/
abbrev State.Inv (s : State) : Prop :=
  Memory.wf s.buf = true ∧
  (s.err = false → s.ecode = 0) ∧
  (s.err = true → s.ecode = 1 ∨ s.ecode = 2 ∨ s.ecode = 3) ∧
  (s.phase ≠ .idle → s.llast.toNat ≤ 1024) ∧
  (s.phase = .absorb ∨ s.phase = .stopped →
    s.acc[9] = 0 ∧ s.acc[10] = 0 ∧ s.acc[11] = 0 ∧ s.txt = Vector.replicate 72 0) ∧
  (s.phase = .final →
    s.acc[9] = s.pos ∧ s.acc[10] = s.sum ∧ s.acc[11] = s.sig[0] ∧
    (s.txt = Vector.replicate 72 0 ∨ s.txt = renderedText s.acc))

/-! ### Agreement of states -/

/-- The two states agree on everything but BUF. -/
abbrev State.sameButBuf (s t : State) : Prop := { s with buf := t.buf } = t

/-- The two states agree on `phase`, `err`, `ecode`, BUF and the model's own fields; they may differ in every register
that a command computes with. -/
abbrev State.sameControl (s t : State) : Prop :=
  s.phase = t.phase ∧ s.err = t.err ∧ s.ecode = t.ecode ∧ s.buf = t.buf ∧
  s.bus = t.bus ∧ s.reply = t.reply ∧ s.tick = t.tick

/-! ### Command sequences and host accesses -/

/-- Commands one after another, with no host access between them; stops at the first stop. -/
def execAll : List Instr → State → Host.Outcome State Fault Refusal
  | [], s => .next s
  | i :: is, s =>
    match exec i s with
    | .next s' => execAll is s'
    | .fault r => .fault r
    | .refused r => .refused r

/-- An offset that takes 8-bit accesses: a byte of BUF or of TXT (spec/20_memory.md R45, R47). -/
abbrev byteOffset (offset : Nat) : Prop := offset < 0x400 ∨ (0x480 ≤ offset ∧ offset < 0x4C8)

/-- An offset that takes 32-bit accesses: CMD, STATUS, POS, SUM, LLAST, ACC[i] or SIG[i] (R45, R47). -/
abbrev wordOffset (offset : Nat) : Prop :=
  (0x400 ≤ offset ∧ offset ≤ 0x410 ∧ offset % 4 = 0) ∨ (0x440 ≤ offset ∧ offset < 0x480 ∧ offset % 4 = 0)

/-- An access that is no host violation (R47, R49). -/
abbrev HostAccess.legal : HostAccess → Prop
  | .read8 offset => byteOffset offset
  | .write8 offset _ => byteOffset offset
  | .read32 offset => wordOffset offset
  | .write32 offset _ => wordOffset offset
  | .otherWidth _ _ => False
  | .hardwareReset => True

/-- An access that can change engine state: a write to CMD, or hardware reset (R10, R48, R180). -/
def HostAccess.drivesEngine : HostAccess → Bool
  | .write32 offset _ => offset == 0x400
  | .hardwareReset => true
  | .read8 _ => false
  | .write8 _ _ => false
  | .read32 _ => false
  | .otherWidth _ _ => false

/-! ### Chunks presented by the host -/

/-- The host has put the chunk `c` into `buf[0..]`: only BUF and the model's own fields may have changed, and BUF now
reads as `c` (spec/20_memory.md R41). -/
def State.presents (c : List Byte) (s s' : State) : Prop :=
  (∃ m b r n, s' = { s with buf := m, bus := b, reply := r, tick := n }) ∧ s'.chunk c.length = c

/-- From `s`, the host presents the chunks one after another, each followed by its `ABSORB`, and the state is then `t`. -/
inductive Absorbs : State → List (List Byte) → State → Prop where
  | nil (s : State) : Absorbs s [] s
  | cons (c : List Byte) (cs : List (List Byte)) (s s1 s2 t : State) :
      s.presents c s1 → exec (.absorb (BitVec.ofNat 11 c.length)) s1 = .next s2 → Absorbs s2 cs t →
      Absorbs s (c :: cs) t

/-- A chunk that an `ABSORB` in phase ABSORB processes: 1 to 1024 bytes, not blank (R82, R83). -/
abbrev processable (c : List Byte) : Prop := 1 ≤ c.length ∧ c.length ≤ 1024 ∧ isBlank c = false

/-- `C'`, the chunk after its first byte was incremented (R90, R133, R145). -/
def bumpFirst : List Byte → List Byte
  | [] => []
  | b :: bs => (b + 1) :: bs

/-! ### A whole computation as a function of the chunks -/

/-- What the chunks leave in slot `i`, from its value `a` (R112, R113). -/
def slotAfter (i : Fin 8) (a : Word) (cs : List (List Byte)) : Word :=
  cs.foldl
    (fun a c =>
      if c.length < 1024 then if i.val = 0 then rotl32 (a ^^^ polyhash c) 1 else a
      else rotl32 (a ^^^ polyhash ((c.drop (128 * i.val)).take 128)) (i.val + 1))
    a

/-- The XOR of `crc32(C')` over the chunks (R133, R134). -/
def crcAfter (a : Word) (cs : List (List Byte)) : Word := cs.foldl (fun a c => a ^^^ crc32 (bumpFirst c)) a

/-- The total of the byte sums over the chunks (R121, R122). -/
def sumAfter (a : Word) (cs : List (List Byte)) : Word :=
  cs.foldl (fun a c => a + (byteSum (bumpFirst c)).setWidth 32) a

/-- The count of the bytes of the chunks, mod 2^32 (R123). -/
def countAfter (a : Word) (cs : List (List Byte)) : Word := cs.foldl (fun a c => a + BitVec.ofNat 32 c.length) a

/-- The XOR of `C'[i]` over the chunks that have a byte `i` (R141, R145). -/
def sigAfter (i : Fin 4) (a : Word) (cs : List (List Byte)) : Word :=
  cs.foldl (fun a c => match (bumpFirst c)[i.val]? with
    | some b => a ^^^ b.setWidth 32
    | none => a) a

/-! ### A byte stream as host accesses -/

/-- At most `n` successive runs of up to 1024 bytes. -/
def cutInto : Nat → List Byte → List (List Byte)
  | 0, _ => []
  | n + 1, bytes => if bytes = [] then [] else bytes.take 1024 :: cutInto n (bytes.drop 1024)

/-- The chunks of a stream: boundaries at multiples of 1024 bytes from its start (R90). -/
def chunksOf (bytes : List Byte) : List (List Byte) := cutInto bytes.length bytes

/-- The chunks that are processed: those before the first blank one (R83, R85). -/
def processedChunks (bytes : List Byte) : List (List Byte) := (chunksOf bytes).takeWhile fun c => !isBlank c

/-- The 8-bit writes that put a chunk into `buf[0..]` (R41, R66 `BUFW`). -/
def writeChunk (c : List Byte) : List HostAccess := c.zipIdx.map fun p => .write8 p.2 p.1

/-- The write of a command to CMD (R66). -/
def commandWrite (i : Instr) : HostAccess := .write32 0x400 (encode i)

/-- How a host presents one chunk: its bytes, then `ABSORB` of their number (R67). -/
def presentChunk (c : List Byte) : List HostAccess :=
  writeChunk c ++ [commandWrite (.absorb (BitVec.ofNat 11 c.length))]

/-- How a host turns a stream into accesses: `INIT`; each chunk; `EOS`; `FINAL`; `RENDER` (R67, R90). -/
def hostStream (bytes : List Byte) : List HostAccess :=
  [commandWrite .init] ++ (chunksOf bytes).flatMap presentChunk ++
    [commandWrite .eos, commandWrite .final, commandWrite .render]

end Sys2Proof.Machine
end

