-- ==== Sys2Proof/Certificates/Slice0/Obligations.lean ====
section
/-! DEFINITION. The statements for the provers. Each docstring names the rules of spec/ it formalises. -/

open Sys2Proof Sys2Proof.Machine

/-! ### Encoding -/

/-- spec/95_test_vectors.md 2.1: the words of the commands decode to the commands; `EOS` is the word of `ABSORB 0`. -/
def Obligations.TableWordsDecodeToTheirCommands : Prop :=
  decode 0x10000000#32 = .ok .init ∧
  decode 0x20000000#32 = .ok (.absorb 0) ∧
  decode 0x20000001#32 = .ok (.absorb 1) ∧
  decode 0x200003FF#32 = .ok (.absorb 1023) ∧
  decode 0x20000400#32 = .ok (.absorb 1024) ∧
  decode 0x200007FF#32 = .ok (.absorb 2047) ∧
  decode 0x30000000#32 = .ok .final ∧
  decode 0x40000000#32 = .ok .render ∧
  encode .eos = 0x20000000#32

/-- Decode and encode agree on every core command, `L` at every value of its field (R60 to R62). -/
def Obligations.DecodeOfEncodeIsTheInstruction : Prop :=
  ∀ i : Instr, i.wf = true → decode (encode i) = .ok i

/-- Each command word has one meaning: a word that decodes is the encoding of what it decodes to (R60 to R62). -/
def Obligations.EncodeOfDecodeIsTheWord : Prop :=
  ∀ (w : Word) (i : Instr), decode w = .ok i → i.wf = true ∧ encode i = w

/-- R62: a word is a command exactly when `(w AND mask) = match`, and `L` is bits 10:0. -/
def Obligations.DecodedExactlyByMaskAndMatch : Prop :=
  ∀ w : Word,
    (decode w = .ok .init ↔ w &&& 0xFFFFFFFF#32 = 0x10000000#32) ∧
    (∀ L : BitVec 11, decode w = .ok (.absorb L) ↔
      w &&& 0xFFFFF800#32 = 0x20000000#32 ∧ L = w.extractLsb' 0 11) ∧
    (decode w = .ok .final ↔ w &&& 0xFFFFFFFF#32 = 0x30000000#32) ∧
    (decode w = .ok .render ↔ w &&& 0xFFFFFFFF#32 = 0x40000000#32)

/-- R64: which words are illegal, and that writing one to CMD raises ILLEGAL_CMD and changes nothing else of the block
(the access itself is taken off the model's own queue). -/
def Obligations.IllegalWordsRaiseIllegalCmd : Prop :=
  ∀ (w : Word) (s : State) (rest : List HostAccess),
    (let op := (w >>> 28).toNat
     op = 0 ∨ 5 ≤ op ∨ ((op = 1 ∨ op = 3 ∨ op = 4) ∧ w.extractLsb' 0 28 ≠ 0) ∨ (op = 2 ∧ w.extractLsb' 11 17 ≠ 0)) →
    s.err = false → s.bus = .write32 0x400 w :: rest →
    step s = .next { s with err := true, ecode := 1, bus := rest, reply := none, tick := s.tick + 1 }

/-! ### The step -/

/-- R24, R50: a 32-bit write of a word to CMD makes the engine execute the command the word encodes; the step takes the
access off the queue, clears the reply and counts the access (the model's own fields, logs 1 and 5). -/
def Obligations.StepRunsTheDecodedCommand : Prop :=
  ∀ (w : Word) (i : Instr) (s : State) (rest : List HostAccess),
    s.bus = .write32 0x400 w :: rest → decode w = .ok i →
    step s = exec i { s with bus := rest, reply := none, tick := s.tick + 1 }

/-- R160, R192: every command completes, whatever the state and the operands. -/
def Obligations.EveryCommandCompletes : Prop :=
  ∀ (i : Instr) (s : State), ∃ t, exec i s = .next t

/-- R47, R49: with an access at the head of the queue, a step answers a next state exactly when the access is no host
violation. -/
def Obligations.StepCompletesExactlyOnLegalAccesses : Prop :=
  ∀ (a : HostAccess) (s : State) (rest : List HostAccess), s.bus = a :: rest →
    ((∃ t, step s = .next t) ↔ a.legal)

/-! ### Reset -/

/-- R29, R180: hardware reset gives phase IDLE, `err` = 0, `ecode` = 0 and STATUS 0x00000000, from every state, and so does
the reset state. -/
def Obligations.HardwareResetClearsStatus : Prop :=
  (State.reset.phase = .idle ∧ State.reset.err = false ∧ State.reset.ecode = 0 ∧ State.reset.statusWord = 0) ∧
  ∀ (s : State) (rest : List HostAccess), s.bus = .hardwareReset :: rest →
    ∃ t, step s = .next t ∧ t.phase = .idle ∧ t.err = false ∧ t.ecode = 0 ∧ t.statusWord = 0 ∧ t.bus = rest

/-- The invariant holds right after reset. -/
def Obligations.ResetSatisfiesInv : Prop := State.reset.Inv

/-- Every step keeps the invariant (R20 to R26, R30, R190), from every state that meets it. -/
def Obligations.EveryStepKeepsInv : Prop :=
  ∀ s s' : State, s.Inv → step s = .next s' → s'.Inv

/-- R29, R181: in phase IDLE no command consumes a register that the spec leaves unspecified: states that differ only in
such registers go on differing only in them, and `INIT` makes them equal. -/
def Obligations.IdleConsumesNoUnspecifiedRegister : Prop :=
  ∀ (i : Instr) (s t s' t' : State), s.sameControl t → s.phase = .idle →
    exec i s = .next s' → exec i t = .next t' →
    s'.sameControl t' ∧ (s'.phase ≠ .idle → s' = t')

/-! ### Command faults -/

/-- R164: while `err` = 1 every word written to CMD, legal or not, is ignored and changes nothing of the block. -/
def Obligations.HaltedEngineIgnoresCommands : Prop :=
  (∀ (i : Instr) (s : State), s.err = true → exec i s = .next s) ∧
  ∀ (w : Word) (s : State) (rest : List HostAccess), s.err = true → s.bus = .write32 0x400 w :: rest →
    step s = .next { s with bus := rest, reply := none, tick := s.tick + 1 }

/-- R165: the only event that clears `err` and `ecode` is hardware reset. -/
def Obligations.OnlyHardwareResetClearsTheFault : Prop :=
  ∀ s s' : State, s.err = true → step s = .next s' →
    (s'.err = true ∧ s'.ecode = s.ecode) ∨ ∃ rest, s.bus = .hardwareReset :: rest

/-- R161, R163: `ABSORB` with `L` in 1025 to 2047 is BAD_LENGTH in every phase and changes `err` and `ecode` only. -/
def Obligations.AbsorbTooLongRaisesBadLength : Prop :=
  ∀ (L : BitVec 11) (s : State), s.err = false → 1024 < L.toNat →
    exec (.absorb L) s = .next { s with err := true, ecode := 2 }

/-- R80, R161, R163: a command in a phase where it is not legal raises BAD_PHASE and changes `err` and `ecode` only. -/
def Obligations.CommandsInWrongPhaseRaiseBadPhase : Prop :=
  ∀ s : State, s.err = false →
    (∀ L : BitVec 11, L.toNat ≤ 1024 → s.phase = .idle ∨ s.phase = .final →
      exec (.absorb L) s = .next { s with err := true, ecode := 3 }) ∧
    (s.phase = .idle ∨ s.phase = .final → exec .eos s = .next { s with err := true, ecode := 3 }) ∧
    (s.phase = .idle ∨ s.phase = .final → exec .final s = .next { s with err := true, ecode := 3 }) ∧
    (s.phase = .idle ∨ s.phase = .absorb ∨ s.phase = .stopped →
      exec .render s = .next { s with err := true, ecode := 3 })

/-- R162: one command reports at most one fault, the first in the check order ILLEGAL_CMD, BAD_LENGTH, BAD_PHASE; and the
rule's three examples, in phase IDLE. -/
def Obligations.FirstCauseIsReported : Prop :=
  (∀ (w : Word) (s : State) (rest : List HostAccess), s.err = false → s.bus = .write32 0x400 w :: rest →
    ∃ t, step s = .next t ∧
      (t.err = true →
        (t.ecode = 1 ∧ ∀ i, decode w ≠ .ok i) ∨
        (t.ecode = 2 ∧ ∃ L, decode w = .ok (.absorb L) ∧ 1024 < L.toNat) ∨
        (t.ecode = 3 ∧ ∃ i, decode w = .ok i ∧ ∀ L, i = .absorb L → L.toNat ≤ 1024)) ∧
      ((∀ i, decode w ≠ .ok i) → t.err = true) ∧
      (∀ L, decode w = .ok (.absorb L) → 1024 < L.toNat → t.err = true)) ∧
  ∀ (s : State) (rest : List HostAccess), s.err = false → s.phase = .idle →
    (s.bus = .write32 0x400 0x20000C01#32 :: rest → ∃ t, step s = .next t ∧ t.statusWord = 0x14#32) ∧
    (s.bus = .write32 0x400 0x20000401#32 :: rest → ∃ t, step s = .next t ∧ t.statusWord = 0x24#32) ∧
    (s.bus = .write32 0x400 0x20000400#32 :: rest → ∃ t, step s = .next t ∧ t.statusWord = 0x34#32)

/-- R163: what STATUS reads after a command fault. -/
def Obligations.StatusAfterAFault : Prop :=
  ∀ (f : CmdFault) (s : State),
    (s.raiseFault f).statusWord =
      (f.code.setWidth 32 <<< 4) ||| 0x4#32 |||
        (match s.phase with | .idle => 0#32 | .absorb => 1#32 | .stopped => 2#32 | .final => 3#32)

/-- R23: the fields of STATUS. -/
def Obligations.StatusFields : Prop :=
  ∀ s : State,
    s.statusWord.extractLsb' 0 2 =
      (match s.phase with | .idle => 0#2 | .absorb => 1#2 | .stopped => 2#2 | .final => 3#2) ∧
    s.statusWord.getLsbD 2 = s.err ∧
    s.statusWord.getLsbD 3 = false ∧
    s.statusWord.extractLsb' 4 4 = s.ecode ∧
    s.statusWord.extractLsb' 8 24 = 0

/-- R20: how a step can change `phase`: by hardware reset, by `INIT`, by an `ABSORB` that stops, by `FINAL`. -/
def Obligations.PhaseChangesOnlyAsTheTableSays : Prop :=
  ∀ s s' : State, step s = .next s' →
    s'.phase = s.phase ∨
    (∃ rest, s.bus = .hardwareReset :: rest ∧ s'.phase = .idle) ∨
    ∃ w rest, s.bus = .write32 0x400 w :: rest ∧ s.err = false ∧
      ((decode w = .ok .init ∧ s'.phase = .absorb) ∨
       (∃ L, decode w = .ok (.absorb L) ∧ s.phase = .absorb ∧ s'.phase = .stopped) ∨
       (decode w = .ok .final ∧ (s.phase = .absorb ∨ s.phase = .stopped) ∧ s'.phase = .final))

/-! ### INIT -/

/-- R81: what `INIT` writes, in every phase; everything else, BUF among it, is as before. -/
def Obligations.InitCreatesTheComputation : Prop :=
  ∀ s : State, s.err = false →
    ∃ t, exec .init s = .next t ∧
      (∀ i : Fin 8, t.acc[i.val] = Config.iv[i]) ∧
      t.acc[8] = 0 ∧ t.acc[9] = 0 ∧ t.acc[10] = 0 ∧ t.acc[11] = 0 ∧
      (∀ i : Fin 4, t.sig[i] = Config.sigiv[i]) ∧
      t.pos = 0 ∧ t.sum = 0 ∧ t.llast = 0 ∧
      (∀ k : Fin 72, t.txt[k] = 0x00#8) ∧
      t.phase = .absorb ∧ t.err = false ∧ t.ecode = s.ecode ∧ t.buf = s.buf ∧
      t.bus = s.bus ∧ t.reply = s.reply ∧ t.tick = s.tick

/-- R7: each `IV[i]` is non-zero, so after `INIT` no mixing slot is 0. -/
def Obligations.InitLeavesNonZeroSlots : Prop :=
  ∀ s : State, s.err = false → ∃ t, exec .init s = .next t ∧ ∀ i : Fin 8, t.acc[i.val] ≠ 0

/-- R81, R90, a computation with no `ABSORB` of a chunk: two states that are not halted and agree on `ecode` and the model's
own fields, whatever else they hold, BUF among it, end after `INIT; EOS; FINAL; RENDER` in states that agree on everything
but BUF. -/
def Obligations.InitCutsOffTheOldComputation : Prop :=
  ∀ s t : State, s.err = false → t.err = false → s.ecode = t.ecode → s.bus = t.bus → s.reply = t.reply →
    s.tick = t.tick →
    ∃ s' t', execAll [.init, .eos, .final, .render] s = .next s' ∧
      execAll [.init, .eos, .final, .render] t = .next t' ∧ s'.sameButBuf t'

/-- R81: nothing of the old computation survives `INIT` except BUF, and no byte of BUF can reach the new one unless a later
`ABSORB` names it: two states that are not halted, agree on `ecode` and the model's own fields and hold the same bytes
wherever a later `ABSORB` names one, whatever else they hold, go by `INIT` and any later commands to states that agree on
everything but BUF. -/
def Obligations.OnlyNamedBytesReachTheNewComputation : Prop :=
  ∀ (later : List Instr) (s t : State), s.err = false → t.err = false → s.ecode = t.ecode → s.bus = t.bus →
    s.reply = t.reply → s.tick = t.tick →
    (∀ L, .absorb L ∈ later → L.toNat ≤ 1024 → ∀ k, k < L.toNat → s.bufByte k = t.bufByte k) →
    ∃ s' t', execAll (.init :: later) s = .next s' ∧ execAll (.init :: later) t = .next t' ∧ s'.sameButBuf t'

/-! ### ABSORB -/

/-- R82, R112, R140, R141, R122, R133, R123: a processed chunk of 1 to 1023 bytes. -/
def Obligations.AbsorbProcessesAShortChunk : Prop :=
  ∀ (L : BitVec 11) (s : State), s.err = false → s.phase = .absorb → L.toNat < 1024 →
    isBlank (s.chunk L.toNat) = false →
    ∃ t, exec (.absorb L) s = .next t ∧
      t.acc[0] = rotl32 (s.acc[0] ^^^ polyhash (s.chunk L.toNat)) 1 ∧
      t.acc[8] = s.acc[8] ^^^ crc32 (bumpFirst (s.chunk L.toNat)) ∧
      (∀ i : Fin 12, i ≠ 0 → i ≠ 8 → t.acc[i] = s.acc[i]) ∧
      t.bufByte 0 = s.bufByte 0 + 1 ∧ (∀ k, k ≠ 0 → t.bufByte k = s.bufByte k) ∧
      (∀ i : Fin 4, t.sig[i] =
        if i.val < min L.toNat 4 then s.sig[i] ^^^ (t.bufByte i.val).setWidth 32 else s.sig[i]) ∧
      t.sum = s.sum + (byteSum (bumpFirst (s.chunk L.toNat))).setWidth 32 ∧
      t.pos = s.pos + L.setWidth 32 ∧ t.llast = L ∧
      t.phase = .absorb ∧ t.err = false ∧ t.ecode = s.ecode ∧ t.txt = s.txt ∧
      t.bus = s.bus ∧ t.reply = s.reply ∧ t.tick = s.tick

/-- R82, R113, R140, R141, R122, R133, R123: a processed chunk of 1024 bytes. -/
def Obligations.AbsorbProcessesAFullChunk : Prop :=
  ∀ s : State, s.err = false → s.phase = .absorb → isBlank (s.chunk 1024) = false →
    ∃ t, exec (.absorb 1024) s = .next t ∧
      (∀ i : Fin 8, t.acc[i.val] =
        rotl32 (s.acc[i.val] ^^^ polyhash (((s.chunk 1024).drop (128 * i.val)).take 128)) (i.val + 1)) ∧
      t.acc[8] = s.acc[8] ^^^ crc32 (bumpFirst (s.chunk 1024)) ∧
      t.acc[9] = s.acc[9] ∧ t.acc[10] = s.acc[10] ∧ t.acc[11] = s.acc[11] ∧
      t.bufByte 0 = s.bufByte 0 + 1 ∧ (∀ k, k ≠ 0 → t.bufByte k = s.bufByte k) ∧
      (∀ i : Fin 4, t.sig[i] = s.sig[i] ^^^ (t.bufByte i.val).setWidth 32) ∧
      t.sum = s.sum + (byteSum (bumpFirst (s.chunk 1024))).setWidth 32 ∧
      t.pos = s.pos + 1024#32 ∧ t.llast = 1024 ∧
      t.phase = .absorb ∧ t.err = false ∧ t.ecode = s.ecode ∧ t.txt = s.txt ∧
      t.bus = s.bus ∧ t.reply = s.reply ∧ t.tick = s.tick

/-- R83: a blank chunk sets `phase` to STOPPED and `llast` to `L` if `L >= 1`, and changes nothing else. -/
def Obligations.AbsorbOfABlankChunkStops : Prop :=
  ∀ (L : BitVec 11) (s : State), s.err = false → s.phase = .absorb → L.toNat ≤ 1024 →
    isBlank (s.chunk L.toNat) = true →
    exec (.absorb L) s = .next { s with phase := .stopped, llast := if L = 0 then s.llast else L }

/-- R85: `ABSORB L` with `L` <= 1024 in phase STOPPED raises no fault and changes nothing; with `L` > 1024 it still faults
with BAD_LENGTH; the only ways out of STOPPED are `FINAL` and `INIT`. -/
def Obligations.AbsorbIsDiscardedWhenStopped : Prop :=
  (∀ (L : BitVec 11) (s : State), s.err = false → s.phase = .stopped → L.toNat ≤ 1024 →
    exec (.absorb L) s = .next s) ∧
  (∀ (L : BitVec 11) (s : State), s.err = false → s.phase = .stopped → 1024 < L.toNat →
    exec (.absorb L) s = .next { s with err := true, ecode := 2 }) ∧
  (∀ (i : Instr) (s t : State), s.phase = .stopped → exec i s = .next t → t.phase ≠ .stopped →
    i = .final ∨ i = .init)

/-- R85, R30 item 3: however many chunks are sent after the stop, nothing changes. -/
def Obligations.NoAbsorbChangesAnythingAfterTheStop : Prop :=
  ∀ (Ls : List (BitVec 11)) (s : State), s.err = false → s.phase = .stopped → (∀ L ∈ Ls, L.toNat ≤ 1024) →
    execAll (Ls.map .absorb) s = .next s

/-- R66, R83: `EOS` is `ABSORB 0`; in phase ABSORB it sets `phase` to STOPPED and changes nothing else. -/
def Obligations.EosStopsTheStream : Prop :=
  (∀ s : State, exec .eos s = exec (.absorb 0) s) ∧
  (∀ s : State, s.err = false → s.phase = .absorb → exec .eos s = .next { s with phase := .stopped }) ∧
  (∀ s : State, s.err = false → s.phase = .stopped → exec .eos s = .next s)

/-- R42: the engine never reads `buf[k]` for k >= L in `ABSORB L`: two states that differ only in such bytes give states
that differ only in BUF, and agree on `buf[0:L]`. -/
def Obligations.AbsorbReadsOnlyItsChunk : Prop :=
  ∀ (L : BitVec 11) (s t : State), s.sameButBuf t → (∀ k, k < L.toNat → s.bufByte k = t.bufByte k) →
    ∃ s' t', exec (.absorb L) s = .next s' ∧ exec (.absorb L) t = .next t' ∧
      s'.sameButBuf t' ∧ ∀ k, k < L.toNat → s'.bufByte k = t'.bufByte k

/-- R25, R42: no command changes a byte of BUF but `buf[0]`, and only `ABSORB` changes that one. -/
def Obligations.CommandsWriteAtMostTheFirstByteOfBuf : Prop :=
  ∀ (i : Instr) (s t : State), exec i s = .next t →
    (∀ k, k ≠ 0 → t.bufByte k = s.bufByte k) ∧
    (t.bufByte 0 = s.bufByte 0 ∨ (t.bufByte 0 = s.bufByte 0 + 1 ∧ ∃ L, i = .absorb L))

/-- The frame of the commands (R11 to R26): `acc[0..8]` are written by `INIT` and `ABSORB` only, `acc[9..11]` by `INIT` and
`FINAL` only, `pos` and `sum` and `llast` by `INIT` and `ABSORB` only, TXT by `INIT` and `RENDER` only, and the model's own
fields by no command. -/
def Obligations.EachRegisterIsWrittenOnlyByItsCommands : Prop :=
  ∀ (i : Instr) (s t : State), exec i s = .next t →
    ((i = .final ∨ i = .render ∨ i = .eos) → (∀ k : Fin 12, k.val < 9 → t.acc[k] = s.acc[k]) ∧
      t.pos = s.pos ∧ t.sum = s.sum ∧ t.llast = s.llast) ∧
    ((i = .render ∨ i = .eos ∨ ∃ L, i = .absorb L) → ∀ k : Fin 12, 9 ≤ k.val → t.acc[k] = s.acc[k]) ∧
    ((i = .render ∨ i = .eos) → t.sig = s.sig) ∧
    ((i = .final ∨ i = .eos ∨ ∃ L, i = .absorb L) → t.txt = s.txt) ∧
    (i = .render → t.phase = s.phase) ∧
    t.bus = s.bus ∧ t.reply = s.reply ∧ t.tick = s.tick

/-- R141: bits 31:8 of `sig[i]` are not changed by an `ABSORB`, whatever the chunk. -/
def Obligations.OnlyLowBitsOfSigReceiveData : Prop :=
  ∀ (L : BitVec 11) (s t : State) (i : Fin 4), exec (.absorb L) s = .next t → t.sig[i] >>> 8 = s.sig[i] >>> 8

/-- R134: two equal chunks cancel in the CRC accumulator: when the host presents, after a processed chunk, the same chunk
again, `acc[8]` is back to its earlier value. -/
def Obligations.EqualChunksCancelInTheCrc : Prop :=
  ∀ (c : List Byte) (s t : State), s.err = false → s.phase = .absorb → processable c → Absorbs s [c, c] t →
    t.acc[8] = s.acc[8]

/-- R12, R122, R123, R134, R145: what a whole sequence of processed chunks leaves in `acc`, `sig`, `sum`, `pos`,
TXT, `phase`, `err` and `ecode`, in closed form. -/
def Obligations.ProcessedChunksInClosedForm : Prop :=
  ∀ (cs : List (List Byte)) (s t : State), s.err = false → s.phase = .absorb → (∀ c ∈ cs, processable c) →
    Absorbs s cs t →
    (∀ i : Fin 8, t.acc[i.val] = slotAfter i s.acc[i.val] cs) ∧
    t.acc[8] = crcAfter s.acc[8] cs ∧
    t.acc[9] = s.acc[9] ∧ t.acc[10] = s.acc[10] ∧ t.acc[11] = s.acc[11] ∧
    (∀ i : Fin 4, t.sig[i] = sigAfter i s.sig[i] cs) ∧
    t.sum = sumAfter s.sum cs ∧ t.pos = countAfter s.pos cs ∧
    t.phase = .absorb ∧ t.err = false ∧ t.ecode = s.ecode ∧ t.txt = s.txt

/-! ### FINAL -/

/-- R86, R143, R150: `FINAL` finalises the signature, assembles `acc[9..11]` and enters phase FINAL. -/
def Obligations.FinalFinalisesAndAssembles : Prop :=
  ∀ s : State, s.err = false → s.phase = .absorb ∨ s.phase = .stopped →
    ∃ t, exec .final s = .next t ∧
      (∀ i : Fin 4, t.sig[i] =
        if i.val < min s.llast.toNat 4 then s.sig[i] ^^^ (Config.k2[i] ^^^ (s.bufByte i.val).setWidth 32)
        else s.sig[i]) ∧
      t.acc[9] = s.pos ∧ t.acc[10] = s.sum ∧ t.acc[11] = t.sig[0] ∧ t.phase = .final ∧
      (∀ i : Fin 12, i.val < 9 → t.acc[i] = s.acc[i]) ∧
      t.pos = s.pos ∧ t.sum = s.sum ∧ t.llast = s.llast ∧ t.buf = s.buf ∧ t.txt = s.txt ∧
      t.err = false ∧ t.ecode = s.ecode ∧ t.bus = s.bus ∧ t.reply = s.reply ∧ t.tick = s.tick

/-- R86: `FINAL` in phase ABSORB gives the same state as `EOS` followed by `FINAL`. -/
def Obligations.FinalNeedsNoEos : Prop :=
  ∀ s : State, s.err = false → s.phase = .absorb →
    ∃ t, execAll [.final] s = .next t ∧ execAll [.eos, .final] s = .next t

/-- R145: for a single chunk of length >= 4 the data bytes cancel: after its `ABSORB` and `FINAL`,
`sig[i]` is its earlier value XOR `K2[i]`, whatever the data. -/
def Obligations.SingleChunkCancelsInTheSignature : Prop :=
  ∀ (L : BitVec 11) (s : State), s.err = false → s.phase = .absorb → 4 ≤ L.toNat → L.toNat ≤ 1024 →
    isBlank (s.chunk L.toNat) = false →
    ∃ t, execAll [.absorb L, .final] s = .next t ∧ ∀ i : Fin 4, t.sig[i] = s.sig[i] ^^^ Config.k2[i]

/-! ### RENDER -/

/-- R151, R154, R155, R88: the 72 characters, each image byte as two hexadecimal digits with the high nibble first, and
nothing else changed. -/
def Obligations.RenderWritesTheDigestText : Prop :=
  ∀ s : State, s.err = false → s.phase = .final →
    ∃ t, exec .render s = .next t ∧
      (∀ (i : Fin 9) (j : Fin 4),
        t.txt[8 * i.val + 2 * j.val] = hexDigit ((s.acc[i.val] >>> (8 * j.val + 4)).setWidth 4) ∧
        t.txt[8 * i.val + 2 * j.val + 1] = hexDigit ((s.acc[i.val] >>> (8 * j.val)).setWidth 4)) ∧
      (∀ k : Fin 72, (0x30 ≤ t.txt[k].toNat ∧ t.txt[k].toNat ≤ 0x39) ∨ (0x61 ≤ t.txt[k].toNat ∧ t.txt[k].toNat ≤ 0x66)) ∧
      t = { s with txt := t.txt }

/-- R153: the hexadecimal digits. -/
def Obligations.HexDigitCodes : Prop :=
  ∀ v : BitVec 4, hexDigit v = if v.toNat ≤ 9 then 0x30#8 + v.setWidth 8 else 0x61#8 + (v.setWidth 8 - 10#8)

/-- R88: `RENDER` may be repeated and writes the same text each time. -/
def Obligations.RenderIsRepeatable : Prop :=
  ∀ s : State, s.err = false → s.phase = .final →
    ∃ t, exec .render s = .next t ∧ exec .render t = .next t

/-- R152: only `acc[0..8]` are rendered: `acc[9..11]` do not appear in TXT, whatever they hold. -/
def Obligations.TextDependsOnTheFirstNineWordsOnly : Prop :=
  ∀ s t s' t' : State, s.err = false → t.err = false → s.phase = .final → t.phase = .final →
    (∀ i : Fin 9, s.acc[i.val] = t.acc[i.val]) → exec .render s = .next s' → exec .render t = .next t' →
    s'.txt = t'.txt

/-! ### Whole computations -/

/-- R90, empty stream: `INIT; EOS; FINAL; RENDER` leaves the initial constants. -/
def Obligations.EmptyStreamLeavesTheConstants : Prop :=
  ∀ s : State, s.err = false →
    ∃ t, execAll [.init, .eos, .final, .render] s = .next t ∧
      (∀ i : Fin 8, t.acc[i.val] = Config.iv[i]) ∧ t.acc[8] = 0 ∧ t.acc[9] = 0 ∧ t.acc[10] = 0 ∧
      (∀ i : Fin 4, t.sig[i] = Config.sigiv[i]) ∧ t.acc[11] = Config.sigiv[0] ∧
      t.llast = 0 ∧ t.finished = true ∧ t.txt = renderedText t.acc

/-- R90, early stop: a blank chunk, whatever the host sends after it, gives the same `acc[0..10]` and TXT as `EOS` in its
place. -/
def Obligations.EarlyStopLeavesTheSameDigest : Prop :=
  ∀ (L : BitVec 11) (later : List (BitVec 11)) (s : State), s.err = false → s.phase = .absorb →
    L.toNat ≤ 1024 → isBlank (s.chunk L.toNat) = true → (∀ M ∈ later, M.toNat ≤ 1024) →
    ∃ t u, execAll (.absorb L :: later.map .absorb ++ [.final, .render]) s = .next t ∧
      execAll [.eos, .final, .render] s = .next u ∧
      (∀ i : Fin 12, i.val < 11 → t.acc[i] = u.acc[i]) ∧ t.txt = u.txt

/-- R90, R67: from any state that is not halted, a host that sends a byte stream as R67 says leaves in `acc[0..10]` and
TXT the digest of the chunks before the first blank one, as a function of the stream. -/
def Obligations.HostStreamGivesItsDigest : Prop :=
  ∀ (bytes : List Byte) (s : State), s.err = false → s.bus = hostStream bytes →
    ∃ t, Host.Core.run core (hostStream bytes).length s = .next t ∧ t.finished = true ∧ t.bus = [] ∧
      (∀ i : Fin 8, t.acc[i.val] = slotAfter i Config.iv[i] (processedChunks bytes)) ∧
      t.acc[8] = crcAfter 0 (processedChunks bytes) ∧
      t.acc[9] = countAfter 0 (processedChunks bytes) ∧
      t.acc[10] = sumAfter 0 (processedChunks bytes) ∧
      t.txt = renderedText t.acc

/-! ### The units -/

/-- R101: the closed form of `polyhash` and its consequences. -/
def Obligations.PolyhashClosedForm : Prop :=
  (∀ bytes : List Byte,
    (polyhash bytes).toNat =
      (∑ k ∈ Finset.range bytes.length, (bytes.getD k 0).toNat * 127 ^ (bytes.length - 1 - k)) % 2 ^ 32) ∧
  polyhash [] = 0 ∧
  (∀ v : Byte, polyhash [v] = v.setWidth 32) ∧
  (∀ bytes : List Byte, polyhash (0 :: bytes) = polyhash bytes) ∧
  (∀ a b : List Byte, polyhash (a ++ b) = polyhash a * 127#32 ^ b.length + polyhash b) ∧
  (∀ r : Word, r * 127#32 = (r <<< 7) - r)

/-- R110: the formula of `rotl32`; bit `j` of `x` becomes bit `(j + c) mod 32` of the result, no bit is lost; the source's
unit test. -/
def Obligations.RotateMovesEveryBit : Prop :=
  (∀ (x : Word) (c : Nat), 1 ≤ c → c ≤ 31 →
    rotl32 x c = (x <<< c) ||| (x >>> (32 - c)) ∧
    ∀ j, j < 32 → (rotl32 x c).getLsbD ((j + c) % 32) = x.getLsbD j) ∧
  rotl32 0x80000000#32 1 = 0x00000001#32

/-- R114: the mix step is linear over bits. -/
def Obligations.RotateIsLinear : Prop :=
  ∀ (a h : Word) (c : Nat), 1 ≤ c → c ≤ 31 → rotl32 (a ^^^ h) c = rotl32 a c ^^^ rotl32 h c

/-- R120: the byte sum is the sum of the bytes mod 256. -/
def Obligations.ByteSumIsTheSumModulo256 : Prop :=
  ∀ bytes : List Byte, (byteSum bytes).toNat = (bytes.map BitVec.toNat).sum % 256

/-- R121: the byte sum of a processed chunk is one more, mod 256, than that of the bytes the host wrote. -/
def Obligations.IncrementAddsOneToTheByteSum : Prop :=
  ∀ bytes : List Byte, bytes ≠ [] → (byteSum (bumpFirst bytes)).toNat = ((bytes.map BitVec.toNat).sum + 1) % 256

/-- R131: the table form equals `crc32` (R130), and the table has the entries given for checking it. -/
def Obligations.CrcTableFormIsTheCrc : Prop :=
  (∀ bytes : List Byte,
    bytes.foldl (fun (c : Word) (b : Byte) => crcTable ((c ^^^ b.setWidth 32).setWidth 8) ^^^ (c >>> 8)) 0xFFFFFFFF#32 ^^^ 0xFFFFFFFF#32 =
      crc32 bytes) ∧
  crcTable 0 = 0x00000000#32 ∧ crcTable 1 = 0x77073096#32 ∧ crcTable 2 = 0xEE0E612C#32 ∧ crcTable 3 = 0x990951BA#32 ∧
  crcTable 4 = 0x076DC419#32 ∧ crcTable 8 = 0x0EDB8832#32 ∧ crcTable 16 = 0x1DB71064#32 ∧
  crcTable 128 = 0xEDB88320#32 ∧ crcTable 255 = 0x2D02EF8D#32

/-- R84: a sequence is blank exactly when every byte is tab, newline, vertical tab, form feed, carriage return or space. -/
def Obligations.BlankMeansAllWhitespace : Prop :=
  ∀ bytes : List Byte, isBlank bytes = true ↔ ∀ b ∈ bytes, (9 ≤ b.toNat ∧ b.toNat ≤ 13) ∨ b.toNat = 32

/-! ### The host's accesses -/

/-- R45, R48: a 32-bit read returns the register, and changes nothing else of the block; CMD and STATUS in every phase, the
other registers once they have a value, in a phase other than IDLE; LLAST is zero-extended in every phase. -/
def Obligations.HostReadsTheRegisters : Prop :=
  ∀ (s : State) (rest : List HostAccess) (offset : Nat), s.bus = .read32 offset :: rest → wordOffset offset →
    ∃ v : Word,
      step s = .next { s with bus := rest, reply := some (.word v), tick := s.tick + 1 } ∧
      (offset = 0x400 → v = 0) ∧ (offset = 0x404 → v = s.statusWord) ∧
      (offset = 0x410 → v.extractLsb' 11 21 = 0) ∧
      (s.phase ≠ .idle →
        (offset = 0x408 → v = s.pos) ∧
        (offset = 0x40C → v = s.sum) ∧ (offset = 0x410 → v = s.llast.setWidth 32) ∧
        (∀ i : Fin 12, offset = 0x440 + 4 * i.val → v = s.acc[i]) ∧
        (∀ i : Fin 4, offset = 0x470 + 4 * i.val → v = s.sig[i]))

/-- R45, R48: an 8-bit read returns the byte of BUF or of TXT and changes nothing else of the block. What the spec leaves
unspecified, a BUF byte nothing has written and TXT in phase IDLE, reads as a free value drawn at the access (logs 3, 4). -/
def Obligations.HostReadsBufAndTxt : Prop :=
  ∀ (s : State) (rest : List HostAccess),
    (∀ k : Fin 1024, s.bus = .read8 k.val :: rest →
      step s = .next
        { s with
          bus := rest
          reply := some (.byte ((s.buf.lookup k.val).getD (Config.freeByte (s.tick + 1) k.val)))
          tick := s.tick + 1 }) ∧
    (∀ k : Fin 72, s.bus = .read8 (0x480 + k.val) :: rest →
      step s = .next
        { s with
          bus := rest
          reply := some (.byte (if s.phase = .idle then Config.freeByte (s.tick + 1) (0x480 + k.val) else s.txt[k]))
          tick := s.tick + 1 })

/-- R48: a host write to `BUF[k]` changes `buf[k]` and nothing else. -/
def Obligations.HostWriteChangesOneByteOfBuf : Prop :=
  ∀ (s : State) (rest : List HostAccess) (k : Fin 1024) (v : Byte), s.bus = .write8 k.val v :: rest →
    ∃ t, step s = .next t ∧ t.bufByte k.val = v ∧
      (∀ a, a ≠ k.val → t.buf.lookup a = s.buf.lookup a) ∧
      t = { s with buf := t.buf, bus := rest, reply := none, tick := s.tick + 1 }

/-- R48: a host write to a read-only location is dropped. -/
def Obligations.WritesToReadOnlyLocationsAreDropped : Prop :=
  ∀ (s : State) (rest : List HostAccess) (offset : Nat) (v : Word) (b : Byte),
    ((s.bus = .write32 offset v :: rest ∧ wordOffset offset ∧ offset ≠ 0x400) ∨
     (s.bus = .write8 offset b :: rest ∧ byteOffset offset ∧ 0x400 ≤ offset)) →
    step s = .next { s with bus := rest, reply := none, tick := s.tick + 1 }

/-- R10, R25, R180: only a write to CMD or hardware reset changes engine state: any other access that completes changes at
most BUF and the model's own fields. -/
def Obligations.OnlyCommandsAndResetChangeRegisters : Prop :=
  ∀ (a : HostAccess) (s s' : State) (rest : List HostAccess), s.bus = a :: rest → a.drivesEngine = false →
    step s = .next s' → s' = { s with buf := s'.buf, bus := rest, reply := s'.reply, tick := s.tick + 1 }

/-- R28, U4 (the model's form, log 3): in phase IDLE a host read of POS, SUM, LLAST, ACC[i] or SIG[i] gives a free value
drawn at that access, and the register's named reset value is not shown; of LLAST only bits 10:0 are free, the others are 0
(R21, R45). -/
def Obligations.IdleReadGivesAFreeValue : Prop :=
  ∀ (s : State) (rest : List HostAccess) (offset : Nat), s.phase = .idle → s.bus = .read32 offset :: rest →
    wordOffset offset → offset ≠ 0x400 → offset ≠ 0x404 →
    ∃ v : Word,
      step s = .next { s with bus := rest, reply := some (.word v), tick := s.tick + 1 } ∧
      (offset ≠ 0x410 → v = Config.freeWord (s.tick + 1) offset) ∧
      (offset = 0x410 → v.extractLsb' 0 11 = (Config.freeWord (s.tick + 1) offset).extractLsb' 0 11 ∧
        v.extractLsb' 11 21 = 0)
end

