-- ==== Sys2Proof/Laws/Encoding.lean ====
section
/-! SUPPORT. Format C: the fields of a word built from fields, and a word as its fields. -/

namespace Sys2Proof

theorem getLsbD_formatC (op : BitVec 4) (z : BitVec 17) (L : BitVec 11) (i : Nat) :
    (formatC op z L).getLsbD i =
      if i < 11 then L.getLsbD i else if i - 11 < 17 then z.getLsbD (i - 11) else op.getLsbD (i - 11 - 17) := by
  show (op ++ z ++ L : BitVec (4 + 17 + 11)).getLsbD i = _
  simp only [BitVec.getLsbD_append]

@[simp] theorem opField_formatC (op : BitVec 4) (z : BitVec 17) (L : BitVec 11) : opField (formatC op z L) = op := by
  apply BitVec.eq_of_getLsbD_eq
  intro i hi
  simp only [opField, BitVec.getLsbD_extractLsb', getLsbD_formatC, hi, decide_true, Bool.true_and]
  rw [if_neg (by omega), if_neg (by omega)]
  congr 1
  omega

@[simp] theorem zField_formatC (op : BitVec 4) (z : BitVec 17) (L : BitVec 11) : zField (formatC op z L) = z := by
  apply BitVec.eq_of_getLsbD_eq
  intro i hi
  simp only [zField, BitVec.getLsbD_extractLsb', getLsbD_formatC, hi, decide_true, Bool.true_and]
  rw [if_neg (by omega), if_pos (by omega)]
  congr 1
  omega

@[simp] theorem lengthField_formatC (op : BitVec 4) (z : BitVec 17) (L : BitVec 11) :
    lengthField (formatC op z L) = L := by
  apply BitVec.eq_of_getLsbD_eq
  intro i hi
  simp only [lengthField, BitVec.getLsbD_extractLsb', getLsbD_formatC, hi, decide_true, Bool.true_and]
  rw [if_pos (by omega)]
  congr 1
  omega

/-- Every word is format C of its three fields (R60). -/
theorem formatC_fields (w : Word) : formatC (opField w) (zField w) (lengthField w) = w := by
  apply BitVec.eq_of_getLsbD_eq
  intro i hi
  simp only [opField, zField, lengthField, getLsbD_formatC, BitVec.getLsbD_extractLsb']
  split
  · rename_i h
    simp [h]
  · split
    · rename_i h1 h2
      simp only [h2, decide_true, Bool.true_and]
      congr 1
      omega
    · have h3 : i - 11 - 17 < 4 := by omega
      simp only [h3, decide_true, Bool.true_and]
      congr 1
      omega

/-- A command without an operand decodes exactly from its word with bits 27:0 clear (R62, R64). -/
theorem decodePlain_ok {i j : Instr} {w : Word} : decodePlain i w = .ok j ↔ zField w = 0 ∧ lengthField w = 0 ∧ i = j := by
  unfold decodePlain
  split <;> simp_all

end Sys2Proof
end

