-- ==== Sys2Proof/Laws/State.lean ====
section
/-! SUPPORT. What each update of the state does to each field, by definition: one lemma per field per update. -/

namespace Sys2Proof.Machine

variable (s : State)

/-! ### Writing a byte of BUF -/

@[simp] theorem State.storeByte_acc (k : Nat) (v : Byte) : (s.storeByte k v).acc = s.acc := rfl
@[simp] theorem State.storeByte_sig (k : Nat) (v : Byte) : (s.storeByte k v).sig = s.sig := rfl
@[simp] theorem State.storeByte_pos (k : Nat) (v : Byte) : (s.storeByte k v).pos = s.pos := rfl
@[simp] theorem State.storeByte_sum (k : Nat) (v : Byte) : (s.storeByte k v).sum = s.sum := rfl
@[simp] theorem State.storeByte_llast (k : Nat) (v : Byte) : (s.storeByte k v).llast = s.llast := rfl
@[simp] theorem State.storeByte_phase (k : Nat) (v : Byte) : (s.storeByte k v).phase = s.phase := rfl
@[simp] theorem State.storeByte_err (k : Nat) (v : Byte) : (s.storeByte k v).err = s.err := rfl
@[simp] theorem State.storeByte_ecode (k : Nat) (v : Byte) : (s.storeByte k v).ecode = s.ecode := rfl
@[simp] theorem State.storeByte_buf (k : Nat) (v : Byte) : (s.storeByte k v).buf = s.buf.store k v := rfl
@[simp] theorem State.storeByte_txt (k : Nat) (v : Byte) : (s.storeByte k v).txt = s.txt := rfl
@[simp] theorem State.storeByte_bus (k : Nat) (v : Byte) : (s.storeByte k v).bus = s.bus := rfl
@[simp] theorem State.storeByte_reply (k : Nat) (v : Byte) : (s.storeByte k v).reply = s.reply := rfl
@[simp] theorem State.storeByte_tick (k : Nat) (v : Byte) : (s.storeByte k v).tick = s.tick := rfl

/-! ### Command-fault entry (R163) -/

@[simp] theorem State.raiseFault_acc (f : CmdFault) : (s.raiseFault f).acc = s.acc := rfl
@[simp] theorem State.raiseFault_sig (f : CmdFault) : (s.raiseFault f).sig = s.sig := rfl
@[simp] theorem State.raiseFault_pos (f : CmdFault) : (s.raiseFault f).pos = s.pos := rfl
@[simp] theorem State.raiseFault_sum (f : CmdFault) : (s.raiseFault f).sum = s.sum := rfl
@[simp] theorem State.raiseFault_llast (f : CmdFault) : (s.raiseFault f).llast = s.llast := rfl
@[simp] theorem State.raiseFault_phase (f : CmdFault) : (s.raiseFault f).phase = s.phase := rfl
@[simp] theorem State.raiseFault_err (f : CmdFault) : (s.raiseFault f).err = true := rfl
@[simp] theorem State.raiseFault_ecode (f : CmdFault) : (s.raiseFault f).ecode = f.code := rfl
@[simp] theorem State.raiseFault_buf (f : CmdFault) : (s.raiseFault f).buf = s.buf := rfl
@[simp] theorem State.raiseFault_txt (f : CmdFault) : (s.raiseFault f).txt = s.txt := rfl
@[simp] theorem State.raiseFault_bus (f : CmdFault) : (s.raiseFault f).bus = s.bus := rfl
@[simp] theorem State.raiseFault_reply (f : CmdFault) : (s.raiseFault f).reply = s.reply := rfl
@[simp] theorem State.raiseFault_tick (f : CmdFault) : (s.raiseFault f).tick = s.tick := rfl

/-! ### A change of phase -/

@[simp] theorem State.setPhase_acc (p : Phase) : (s.setPhase p).acc = s.acc := rfl
@[simp] theorem State.setPhase_sig (p : Phase) : (s.setPhase p).sig = s.sig := rfl
@[simp] theorem State.setPhase_pos (p : Phase) : (s.setPhase p).pos = s.pos := rfl
@[simp] theorem State.setPhase_sum (p : Phase) : (s.setPhase p).sum = s.sum := rfl
@[simp] theorem State.setPhase_llast (p : Phase) : (s.setPhase p).llast = s.llast := rfl
@[simp] theorem State.setPhase_phase (p : Phase) : (s.setPhase p).phase = p := rfl
@[simp] theorem State.setPhase_err (p : Phase) : (s.setPhase p).err = s.err := rfl
@[simp] theorem State.setPhase_ecode (p : Phase) : (s.setPhase p).ecode = s.ecode := rfl
@[simp] theorem State.setPhase_buf (p : Phase) : (s.setPhase p).buf = s.buf := rfl
@[simp] theorem State.setPhase_txt (p : Phase) : (s.setPhase p).txt = s.txt := rfl
@[simp] theorem State.setPhase_bus (p : Phase) : (s.setPhase p).bus = s.bus := rfl
@[simp] theorem State.setPhase_reply (p : Phase) : (s.setPhase p).reply = s.reply := rfl
@[simp] theorem State.setPhase_tick (p : Phase) : (s.setPhase p).tick = s.tick := rfl

/-! ### Noting the chunk length (R21) -/

@[simp] theorem State.noteLength_acc (L : BitVec 11) : (s.noteLength L).acc = s.acc := rfl
@[simp] theorem State.noteLength_sig (L : BitVec 11) : (s.noteLength L).sig = s.sig := rfl
@[simp] theorem State.noteLength_pos (L : BitVec 11) : (s.noteLength L).pos = s.pos := rfl
@[simp] theorem State.noteLength_sum (L : BitVec 11) : (s.noteLength L).sum = s.sum := rfl
@[simp] theorem State.noteLength_llast (L : BitVec 11) : (s.noteLength L).llast = (if L = 0 then s.llast else L) := rfl
@[simp] theorem State.noteLength_phase (L : BitVec 11) : (s.noteLength L).phase = s.phase := rfl
@[simp] theorem State.noteLength_err (L : BitVec 11) : (s.noteLength L).err = s.err := rfl
@[simp] theorem State.noteLength_ecode (L : BitVec 11) : (s.noteLength L).ecode = s.ecode := rfl
@[simp] theorem State.noteLength_buf (L : BitVec 11) : (s.noteLength L).buf = s.buf := rfl
@[simp] theorem State.noteLength_txt (L : BitVec 11) : (s.noteLength L).txt = s.txt := rfl
@[simp] theorem State.noteLength_bus (L : BitVec 11) : (s.noteLength L).bus = s.bus := rfl
@[simp] theorem State.noteLength_reply (L : BitVec 11) : (s.noteLength L).reply = s.reply := rfl
@[simp] theorem State.noteLength_tick (L : BitVec 11) : (s.noteLength L).tick = s.tick := rfl

/-! ### The mixer (R112, R113) -/

@[simp] theorem State.mixStep_acc (L : BitVec 11) : (s.mixStep L).acc = (if L.toNat < Config.chunkMax then mixShort s.acc (s.chunk L.toNat) else mixFull s.acc (s.chunk L.toNat)) := rfl
@[simp] theorem State.mixStep_sig (L : BitVec 11) : (s.mixStep L).sig = s.sig := rfl
@[simp] theorem State.mixStep_pos (L : BitVec 11) : (s.mixStep L).pos = s.pos := rfl
@[simp] theorem State.mixStep_sum (L : BitVec 11) : (s.mixStep L).sum = s.sum := rfl
@[simp] theorem State.mixStep_llast (L : BitVec 11) : (s.mixStep L).llast = s.llast := rfl
@[simp] theorem State.mixStep_phase (L : BitVec 11) : (s.mixStep L).phase = s.phase := rfl
@[simp] theorem State.mixStep_err (L : BitVec 11) : (s.mixStep L).err = s.err := rfl
@[simp] theorem State.mixStep_ecode (L : BitVec 11) : (s.mixStep L).ecode = s.ecode := rfl
@[simp] theorem State.mixStep_buf (L : BitVec 11) : (s.mixStep L).buf = s.buf := rfl
@[simp] theorem State.mixStep_txt (L : BitVec 11) : (s.mixStep L).txt = s.txt := rfl
@[simp] theorem State.mixStep_bus (L : BitVec 11) : (s.mixStep L).bus = s.bus := rfl
@[simp] theorem State.mixStep_reply (L : BitVec 11) : (s.mixStep L).reply = s.reply := rfl
@[simp] theorem State.mixStep_tick (L : BitVec 11) : (s.mixStep L).tick = s.tick := rfl

/-! ### The first-byte increment (R140) -/

@[simp] theorem State.sigIncrement_acc : (s.sigIncrement).acc = s.acc := rfl
@[simp] theorem State.sigIncrement_sig : (s.sigIncrement).sig = s.sig := rfl
@[simp] theorem State.sigIncrement_pos : (s.sigIncrement).pos = s.pos := rfl
@[simp] theorem State.sigIncrement_sum : (s.sigIncrement).sum = s.sum := rfl
@[simp] theorem State.sigIncrement_llast : (s.sigIncrement).llast = s.llast := rfl
@[simp] theorem State.sigIncrement_phase : (s.sigIncrement).phase = s.phase := rfl
@[simp] theorem State.sigIncrement_err : (s.sigIncrement).err = s.err := rfl
@[simp] theorem State.sigIncrement_ecode : (s.sigIncrement).ecode = s.ecode := rfl
@[simp] theorem State.sigIncrement_buf : (s.sigIncrement).buf = s.buf.store 0 (s.bufByte 0 + 1) := rfl
@[simp] theorem State.sigIncrement_txt : (s.sigIncrement).txt = s.txt := rfl
@[simp] theorem State.sigIncrement_bus : (s.sigIncrement).bus = s.bus := rfl
@[simp] theorem State.sigIncrement_reply : (s.sigIncrement).reply = s.reply := rfl
@[simp] theorem State.sigIncrement_tick : (s.sigIncrement).tick = s.tick := rfl

/-! ### The signature mix (R141) -/

@[simp] theorem State.sigMix_acc (L : BitVec 11) : (s.sigMix L).acc = s.acc := rfl
@[simp] theorem State.sigMix_pos (L : BitVec 11) : (s.sigMix L).pos = s.pos := rfl
@[simp] theorem State.sigMix_sum (L : BitVec 11) : (s.sigMix L).sum = s.sum := rfl
@[simp] theorem State.sigMix_llast (L : BitVec 11) : (s.sigMix L).llast = s.llast := rfl
@[simp] theorem State.sigMix_phase (L : BitVec 11) : (s.sigMix L).phase = s.phase := rfl
@[simp] theorem State.sigMix_err (L : BitVec 11) : (s.sigMix L).err = s.err := rfl
@[simp] theorem State.sigMix_ecode (L : BitVec 11) : (s.sigMix L).ecode = s.ecode := rfl
@[simp] theorem State.sigMix_buf (L : BitVec 11) : (s.sigMix L).buf = s.buf := rfl
@[simp] theorem State.sigMix_txt (L : BitVec 11) : (s.sigMix L).txt = s.txt := rfl
@[simp] theorem State.sigMix_bus (L : BitVec 11) : (s.sigMix L).bus = s.bus := rfl
@[simp] theorem State.sigMix_reply (L : BitVec 11) : (s.sigMix L).reply = s.reply := rfl
@[simp] theorem State.sigMix_tick (L : BitVec 11) : (s.sigMix L).tick = s.tick := rfl

/-! ### The running sum (R122) -/

@[simp] theorem State.addByteSum_acc (L : BitVec 11) : (s.addByteSum L).acc = s.acc := rfl
@[simp] theorem State.addByteSum_sig (L : BitVec 11) : (s.addByteSum L).sig = s.sig := rfl
@[simp] theorem State.addByteSum_pos (L : BitVec 11) : (s.addByteSum L).pos = s.pos := rfl
@[simp] theorem State.addByteSum_sum (L : BitVec 11) : (s.addByteSum L).sum = s.sum + (byteSum (s.chunk L.toNat)).setWidth 32 := rfl
@[simp] theorem State.addByteSum_llast (L : BitVec 11) : (s.addByteSum L).llast = s.llast := rfl
@[simp] theorem State.addByteSum_phase (L : BitVec 11) : (s.addByteSum L).phase = s.phase := rfl
@[simp] theorem State.addByteSum_err (L : BitVec 11) : (s.addByteSum L).err = s.err := rfl
@[simp] theorem State.addByteSum_ecode (L : BitVec 11) : (s.addByteSum L).ecode = s.ecode := rfl
@[simp] theorem State.addByteSum_buf (L : BitVec 11) : (s.addByteSum L).buf = s.buf := rfl
@[simp] theorem State.addByteSum_txt (L : BitVec 11) : (s.addByteSum L).txt = s.txt := rfl
@[simp] theorem State.addByteSum_bus (L : BitVec 11) : (s.addByteSum L).bus = s.bus := rfl
@[simp] theorem State.addByteSum_reply (L : BitVec 11) : (s.addByteSum L).reply = s.reply := rfl
@[simp] theorem State.addByteSum_tick (L : BitVec 11) : (s.addByteSum L).tick = s.tick := rfl

/-! ### The CRC accumulator (R133) -/

@[simp] theorem State.xorCrc_acc (L : BitVec 11) : (s.xorCrc L).acc = s.acc.set 8 (s.acc[8] ^^^ crc32 (s.chunk L.toNat)) := rfl
@[simp] theorem State.xorCrc_sig (L : BitVec 11) : (s.xorCrc L).sig = s.sig := rfl
@[simp] theorem State.xorCrc_pos (L : BitVec 11) : (s.xorCrc L).pos = s.pos := rfl
@[simp] theorem State.xorCrc_sum (L : BitVec 11) : (s.xorCrc L).sum = s.sum := rfl
@[simp] theorem State.xorCrc_llast (L : BitVec 11) : (s.xorCrc L).llast = s.llast := rfl
@[simp] theorem State.xorCrc_phase (L : BitVec 11) : (s.xorCrc L).phase = s.phase := rfl
@[simp] theorem State.xorCrc_err (L : BitVec 11) : (s.xorCrc L).err = s.err := rfl
@[simp] theorem State.xorCrc_ecode (L : BitVec 11) : (s.xorCrc L).ecode = s.ecode := rfl
@[simp] theorem State.xorCrc_buf (L : BitVec 11) : (s.xorCrc L).buf = s.buf := rfl
@[simp] theorem State.xorCrc_txt (L : BitVec 11) : (s.xorCrc L).txt = s.txt := rfl
@[simp] theorem State.xorCrc_bus (L : BitVec 11) : (s.xorCrc L).bus = s.bus := rfl
@[simp] theorem State.xorCrc_reply (L : BitVec 11) : (s.xorCrc L).reply = s.reply := rfl
@[simp] theorem State.xorCrc_tick (L : BitVec 11) : (s.xorCrc L).tick = s.tick := rfl

/-! ### The byte count (R123) -/

@[simp] theorem State.addCount_acc (L : BitVec 11) : (s.addCount L).acc = s.acc := rfl
@[simp] theorem State.addCount_sig (L : BitVec 11) : (s.addCount L).sig = s.sig := rfl
@[simp] theorem State.addCount_pos (L : BitVec 11) : (s.addCount L).pos = s.pos + L.setWidth 32 := rfl
@[simp] theorem State.addCount_sum (L : BitVec 11) : (s.addCount L).sum = s.sum := rfl
@[simp] theorem State.addCount_llast (L : BitVec 11) : (s.addCount L).llast = s.llast := rfl
@[simp] theorem State.addCount_phase (L : BitVec 11) : (s.addCount L).phase = s.phase := rfl
@[simp] theorem State.addCount_err (L : BitVec 11) : (s.addCount L).err = s.err := rfl
@[simp] theorem State.addCount_ecode (L : BitVec 11) : (s.addCount L).ecode = s.ecode := rfl
@[simp] theorem State.addCount_buf (L : BitVec 11) : (s.addCount L).buf = s.buf := rfl
@[simp] theorem State.addCount_txt (L : BitVec 11) : (s.addCount L).txt = s.txt := rfl
@[simp] theorem State.addCount_bus (L : BitVec 11) : (s.addCount L).bus = s.bus := rfl
@[simp] theorem State.addCount_reply (L : BitVec 11) : (s.addCount L).reply = s.reply := rfl
@[simp] theorem State.addCount_tick (L : BitVec 11) : (s.addCount L).tick = s.tick := rfl

/-! ### INIT (R81) -/

@[simp] theorem State.initialise_acc (c : Constants) : (s.initialise c).acc = initialAcc c := rfl
@[simp] theorem State.initialise_sig (c : Constants) : (s.initialise c).sig = c.sigiv := rfl
@[simp] theorem State.initialise_pos (c : Constants) : (s.initialise c).pos = 0 := rfl
@[simp] theorem State.initialise_sum (c : Constants) : (s.initialise c).sum = 0 := rfl
@[simp] theorem State.initialise_llast (c : Constants) : (s.initialise c).llast = 0 := rfl
@[simp] theorem State.initialise_phase (c : Constants) : (s.initialise c).phase = .absorb := rfl
@[simp] theorem State.initialise_err (c : Constants) : (s.initialise c).err = s.err := rfl
@[simp] theorem State.initialise_ecode (c : Constants) : (s.initialise c).ecode = s.ecode := rfl
@[simp] theorem State.initialise_buf (c : Constants) : (s.initialise c).buf = s.buf := rfl
@[simp] theorem State.initialise_txt (c : Constants) : (s.initialise c).txt = Vector.replicate 72 0x00#8 := rfl
@[simp] theorem State.initialise_bus (c : Constants) : (s.initialise c).bus = s.bus := rfl
@[simp] theorem State.initialise_reply (c : Constants) : (s.initialise c).reply = s.reply := rfl
@[simp] theorem State.initialise_tick (c : Constants) : (s.initialise c).tick = s.tick := rfl

/-! ### The signature finalisation (R143) -/

@[simp] theorem State.sigFinalise_acc (c : Constants) : (s.sigFinalise c).acc = s.acc := rfl
@[simp] theorem State.sigFinalise_pos (c : Constants) : (s.sigFinalise c).pos = s.pos := rfl
@[simp] theorem State.sigFinalise_sum (c : Constants) : (s.sigFinalise c).sum = s.sum := rfl
@[simp] theorem State.sigFinalise_llast (c : Constants) : (s.sigFinalise c).llast = s.llast := rfl
@[simp] theorem State.sigFinalise_phase (c : Constants) : (s.sigFinalise c).phase = s.phase := rfl
@[simp] theorem State.sigFinalise_err (c : Constants) : (s.sigFinalise c).err = s.err := rfl
@[simp] theorem State.sigFinalise_ecode (c : Constants) : (s.sigFinalise c).ecode = s.ecode := rfl
@[simp] theorem State.sigFinalise_buf (c : Constants) : (s.sigFinalise c).buf = s.buf := rfl
@[simp] theorem State.sigFinalise_txt (c : Constants) : (s.sigFinalise c).txt = s.txt := rfl
@[simp] theorem State.sigFinalise_bus (c : Constants) : (s.sigFinalise c).bus = s.bus := rfl
@[simp] theorem State.sigFinalise_reply (c : Constants) : (s.sigFinalise c).reply = s.reply := rfl
@[simp] theorem State.sigFinalise_tick (c : Constants) : (s.sigFinalise c).tick = s.tick := rfl

/-! ### Assembly (R150) -/

@[simp] theorem State.assemble_acc : (s.assemble).acc = ((s.acc.set 9 s.pos).set 10 s.sum).set 11 s.sig[0] := rfl
@[simp] theorem State.assemble_sig : (s.assemble).sig = s.sig := rfl
@[simp] theorem State.assemble_pos : (s.assemble).pos = s.pos := rfl
@[simp] theorem State.assemble_sum : (s.assemble).sum = s.sum := rfl
@[simp] theorem State.assemble_llast : (s.assemble).llast = s.llast := rfl
@[simp] theorem State.assemble_phase : (s.assemble).phase = s.phase := rfl
@[simp] theorem State.assemble_err : (s.assemble).err = s.err := rfl
@[simp] theorem State.assemble_ecode : (s.assemble).ecode = s.ecode := rfl
@[simp] theorem State.assemble_buf : (s.assemble).buf = s.buf := rfl
@[simp] theorem State.assemble_txt : (s.assemble).txt = s.txt := rfl
@[simp] theorem State.assemble_bus : (s.assemble).bus = s.bus := rfl
@[simp] theorem State.assemble_reply : (s.assemble).reply = s.reply := rfl
@[simp] theorem State.assemble_tick : (s.assemble).tick = s.tick := rfl

/-! ### RENDER (R155) -/

@[simp] theorem State.renderText_acc : (s.renderText).acc = s.acc := by simp only [State.renderText]
@[simp] theorem State.renderText_sig : (s.renderText).sig = s.sig := by simp only [State.renderText]
@[simp] theorem State.renderText_pos : (s.renderText).pos = s.pos := by simp only [State.renderText]
@[simp] theorem State.renderText_sum : (s.renderText).sum = s.sum := by simp only [State.renderText]
@[simp] theorem State.renderText_llast : (s.renderText).llast = s.llast := by simp only [State.renderText]
@[simp] theorem State.renderText_phase : (s.renderText).phase = s.phase := by simp only [State.renderText]
@[simp] theorem State.renderText_err : (s.renderText).err = s.err := by simp only [State.renderText]
@[simp] theorem State.renderText_ecode : (s.renderText).ecode = s.ecode := by simp only [State.renderText]
@[simp] theorem State.renderText_buf : (s.renderText).buf = s.buf := by simp only [State.renderText]
@[simp] theorem State.renderText_txt : (s.renderText).txt = renderedText s.acc := by simp only [State.renderText]
@[simp] theorem State.renderText_bus : (s.renderText).bus = s.bus := by simp only [State.renderText]
@[simp] theorem State.renderText_reply : (s.renderText).reply = s.reply := by simp only [State.renderText]
@[simp] theorem State.renderText_tick : (s.renderText).tick = s.tick := by simp only [State.renderText]

/-! ### A host read (R48) -/

@[simp] theorem State.putReply_acc (r : Reply) : (s.putReply r).acc = s.acc := rfl
@[simp] theorem State.putReply_sig (r : Reply) : (s.putReply r).sig = s.sig := rfl
@[simp] theorem State.putReply_pos (r : Reply) : (s.putReply r).pos = s.pos := rfl
@[simp] theorem State.putReply_sum (r : Reply) : (s.putReply r).sum = s.sum := rfl
@[simp] theorem State.putReply_llast (r : Reply) : (s.putReply r).llast = s.llast := rfl
@[simp] theorem State.putReply_phase (r : Reply) : (s.putReply r).phase = s.phase := rfl
@[simp] theorem State.putReply_err (r : Reply) : (s.putReply r).err = s.err := rfl
@[simp] theorem State.putReply_ecode (r : Reply) : (s.putReply r).ecode = s.ecode := rfl
@[simp] theorem State.putReply_buf (r : Reply) : (s.putReply r).buf = s.buf := rfl
@[simp] theorem State.putReply_txt (r : Reply) : (s.putReply r).txt = s.txt := rfl
@[simp] theorem State.putReply_bus (r : Reply) : (s.putReply r).bus = s.bus := rfl
@[simp] theorem State.putReply_reply (r : Reply) : (s.putReply r).reply = some r := rfl
@[simp] theorem State.putReply_tick (r : Reply) : (s.putReply r).tick = s.tick := rfl

/-! ### Taking a host access (log 1) -/

@[simp] theorem State.takeAccess_acc (rest : List HostAccess) : (s.takeAccess rest).acc = s.acc := rfl
@[simp] theorem State.takeAccess_sig (rest : List HostAccess) : (s.takeAccess rest).sig = s.sig := rfl
@[simp] theorem State.takeAccess_pos (rest : List HostAccess) : (s.takeAccess rest).pos = s.pos := rfl
@[simp] theorem State.takeAccess_sum (rest : List HostAccess) : (s.takeAccess rest).sum = s.sum := rfl
@[simp] theorem State.takeAccess_llast (rest : List HostAccess) : (s.takeAccess rest).llast = s.llast := rfl
@[simp] theorem State.takeAccess_phase (rest : List HostAccess) : (s.takeAccess rest).phase = s.phase := rfl
@[simp] theorem State.takeAccess_err (rest : List HostAccess) : (s.takeAccess rest).err = s.err := rfl
@[simp] theorem State.takeAccess_ecode (rest : List HostAccess) : (s.takeAccess rest).ecode = s.ecode := rfl
@[simp] theorem State.takeAccess_buf (rest : List HostAccess) : (s.takeAccess rest).buf = s.buf := rfl
@[simp] theorem State.takeAccess_txt (rest : List HostAccess) : (s.takeAccess rest).txt = s.txt := rfl
@[simp] theorem State.takeAccess_bus (rest : List HostAccess) : (s.takeAccess rest).bus = rest := rfl
@[simp] theorem State.takeAccess_reply (rest : List HostAccess) : (s.takeAccess rest).reply = none := rfl
@[simp] theorem State.takeAccess_tick (rest : List HostAccess) : (s.takeAccess rest).tick = s.tick + 1 := rfl

/-! ### A command as the next host access -/

@[simp] theorem State.withCommand_acc (w : Word) : (s.withCommand w).acc = s.acc := rfl
@[simp] theorem State.withCommand_sig (w : Word) : (s.withCommand w).sig = s.sig := rfl
@[simp] theorem State.withCommand_pos (w : Word) : (s.withCommand w).pos = s.pos := rfl
@[simp] theorem State.withCommand_sum (w : Word) : (s.withCommand w).sum = s.sum := rfl
@[simp] theorem State.withCommand_llast (w : Word) : (s.withCommand w).llast = s.llast := rfl
@[simp] theorem State.withCommand_phase (w : Word) : (s.withCommand w).phase = s.phase := rfl
@[simp] theorem State.withCommand_err (w : Word) : (s.withCommand w).err = s.err := rfl
@[simp] theorem State.withCommand_ecode (w : Word) : (s.withCommand w).ecode = s.ecode := rfl
@[simp] theorem State.withCommand_buf (w : Word) : (s.withCommand w).buf = s.buf := rfl
@[simp] theorem State.withCommand_txt (w : Word) : (s.withCommand w).txt = s.txt := rfl
@[simp] theorem State.withCommand_bus (w : Word) : (s.withCommand w).bus = .write32 cmdOffset w :: s.bus := rfl
@[simp] theorem State.withCommand_reply (w : Word) : (s.withCommand w).reply = s.reply := rfl
@[simp] theorem State.withCommand_tick (w : Word) : (s.withCommand w).tick = s.tick := rfl

@[simp] theorem State.hardwareReset_acc : s.hardwareReset.acc = State.reset.acc := rfl
@[simp] theorem State.hardwareReset_sig : s.hardwareReset.sig = State.reset.sig := rfl
@[simp] theorem State.hardwareReset_pos : s.hardwareReset.pos = State.reset.pos := rfl
@[simp] theorem State.hardwareReset_sum : s.hardwareReset.sum = State.reset.sum := rfl
@[simp] theorem State.hardwareReset_llast : s.hardwareReset.llast = State.reset.llast := rfl
@[simp] theorem State.hardwareReset_phase : s.hardwareReset.phase = State.reset.phase := rfl
@[simp] theorem State.hardwareReset_err : s.hardwareReset.err = State.reset.err := rfl
@[simp] theorem State.hardwareReset_ecode : s.hardwareReset.ecode = State.reset.ecode := rfl
@[simp] theorem State.hardwareReset_buf : s.hardwareReset.buf = State.reset.buf := rfl
@[simp] theorem State.hardwareReset_txt : s.hardwareReset.txt = State.reset.txt := rfl
@[simp] theorem State.hardwareReset_bus : s.hardwareReset.bus = s.bus := rfl
@[simp] theorem State.hardwareReset_reply : s.hardwareReset.reply = s.reply := rfl
@[simp] theorem State.hardwareReset_tick : s.hardwareReset.tick = s.tick := rfl

end Sys2Proof.Machine
end

