-- ==== Sys2Proof/Laws/Memory.lean ====
section
/-! SUPPORT. The laws of BUF: read after write, the canonical form, and equality of canonical memories. -/

namespace Sys2Proof.Machine

namespace Memory

@[simp] theorem lookup_nil (k : Nat) : Memory.lookup [] k = none := rfl

theorem lookup_cons (a : Nat) (b : Byte) (m : Memory) (k : Nat) :
    Memory.lookup ((a, b) :: m) k = if a = k then some b else Memory.lookup m k := rfl

@[simp] theorem lookup_store_same (m : Memory) (k : Nat) (v : Byte) : (Memory.store m k v).lookup k = some v := by
  induction m with
  | nil => simp [Memory.store, lookup_cons]
  | cons p m ih =>
    obtain ⟨a, b⟩ := p
    unfold Memory.store
    split
    · simp [lookup_cons]
    · split
      · simp [lookup_cons]
      · rename_i h
        simp [lookup_cons, ih, Ne.symm h]

theorem lookup_store_other (m : Memory) (k j : Nat) (v : Byte) (hjk : j ≠ k) :
    (Memory.store m k v).lookup j = m.lookup j := by
  induction m with
  | nil => simp [Memory.store, lookup_cons, Ne.symm hjk]
  | cons p m ih =>
    obtain ⟨a, b⟩ := p
    unfold Memory.store
    split
    · simp [lookup_cons, Ne.symm hjk]
    · split
      · rename_i h
        subst h
        simp [lookup_cons, Ne.symm hjk]
      · simp [lookup_cons, ih]

theorem lookup_store (m : Memory) (k j : Nat) (v : Byte) :
    (Memory.store m k v).lookup j = if j = k then some v else m.lookup j := by
  split
  · subst_vars; exact lookup_store_same m _ v
  · exact lookup_store_other m k j v ‹_›

theorem wfFrom_cons (low a : Nat) (b : Byte) (m : Memory) :
    Memory.wfFrom low ((a, b) :: m) = true ↔ low ≤ a ∧ a < 1024 ∧ Memory.wfFrom (a + 1) m = true := by
  simp only [Memory.wfFrom, Bool.and_eq_true, decide_eq_true_eq, and_assoc]
  exact Iff.rfl

theorem wfFrom_store {low k : Nat} {m : Memory} (v : Byte) (hm : Memory.wfFrom low m = true) (hlow : low ≤ k)
    (hk : k < 1024) : Memory.wfFrom low (Memory.store m k v) = true := by
  induction m generalizing low with
  | nil => exact (wfFrom_cons ..).2 ⟨hlow, hk, rfl⟩
  | cons p m ih =>
    obtain ⟨a, b⟩ := p
    rw [wfFrom_cons] at hm
    obtain ⟨ha, ha', hm'⟩ := hm
    unfold Memory.store
    split
    · simp only [wfFrom_cons]
      exact ⟨hlow, hk, by omega, ha', hm'⟩
    · split
      · rename_i h
        subst h
        exact (wfFrom_cons ..).2 ⟨ha, ha', hm'⟩
      · exact (wfFrom_cons ..).2 ⟨ha, ha', ih hm' (by omega)⟩

/-- A write inside BUF keeps the canonical form. -/
theorem wf_store {m : Memory} {k : Nat} (v : Byte) (hm : Memory.wf m = true) (hk : k < 1024) :
    Memory.wf (Memory.store m k v) = true :=
  wfFrom_store v hm (Nat.zero_le k) hk

@[simp] theorem wf_nil : Memory.wf [] = true := rfl

theorem lookup_of_lt {low k : Nat} {m : Memory} (hm : Memory.wfFrom low m = true) (hk : k < low) : m.lookup k = none := by
  induction m generalizing low with
  | nil => rfl
  | cons p m ih =>
    obtain ⟨a, b⟩ := p
    obtain ⟨ha, -, hm'⟩ := (wfFrom_cons ..).1 hm
    rw [lookup_cons, if_neg (by omega), ih hm' (by omega)]

theorem eq_of_lookup_from {low : Nat} {m n : Memory} (hm : Memory.wfFrom low m = true)
    (hn : Memory.wfFrom low n = true) (h : ∀ k, m.lookup k = n.lookup k) : m = n := by
  induction m generalizing low n with
  | nil =>
    cases n with
    | nil => rfl
    | cons q n =>
      obtain ⟨a', b'⟩ := q
      simpa [lookup_cons] using h a'
  | cons p m ih =>
    obtain ⟨a, b⟩ := p
    obtain ⟨-, -, hm'⟩ := (wfFrom_cons ..).1 hm
    cases n with
    | nil => simpa [lookup_cons] using h a
    | cons q n =>
      obtain ⟨a', b'⟩ := q
      obtain ⟨-, -, hn'⟩ := (wfFrom_cons ..).1 hn
      have haa : a = a' := by
        rcases Nat.lt_trichotomy a a' with hlt | heq | hgt
        · have := h a
          rw [lookup_cons, if_pos rfl, lookup_cons, if_neg (by omega), lookup_of_lt hn' (by omega)] at this
          cases this
        · exact heq
        · have := h a'
          rw [lookup_cons, if_neg (by omega), lookup_cons, if_pos rfl, lookup_of_lt hm' (by omega)] at this
          cases this
      subst haa
      have hb : b = b' := by simpa [lookup_cons] using h a
      subst hb
      rw [ih hm' hn']
      intro k
      by_cases hk : a = k
      · subst hk; rw [lookup_of_lt hm' (by omega), lookup_of_lt hn' (by omega)]
      · simpa [lookup_cons, hk] using h k

/-- Equal memories are equal data: canonical memories with the same bytes are the same list. -/
theorem eq_of_lookup {m n : Memory} (hm : Memory.wf m = true) (hn : Memory.wf n = true)
    (h : ∀ k, m.lookup k = n.lookup k) : m = n :=
  eq_of_lookup_from hm hn h

end Memory

/-! ### Bytes and chunks of a state -/

@[simp] theorem State.bufByte_storeByte_same (s : State) (k : Nat) (v : Byte) : (s.storeByte k v).bufByte k = v := by
  simp [State.bufByte]

theorem State.bufByte_storeByte_other (s : State) (k j : Nat) (v : Byte) (h : j ≠ k) :
    (s.storeByte k v).bufByte j = s.bufByte j := by
  simp [State.bufByte, Memory.lookup_store_other _ _ _ _ h]

/-- `buf[k]` depends on BUF and the access counter only. -/
theorem State.bufByte_congr {s t : State} (hb : s.buf = t.buf) (ht : s.tick = t.tick) (k : Nat) :
    s.bufByte k = t.bufByte k := by
  rw [State.bufByte, State.bufByte, hb, ht]

theorem State.chunk_congr {s t : State} (n : Nat) (h : ∀ k, k < n → s.bufByte k = t.bufByte k) :
    s.chunk n = t.chunk n :=
  List.map_congr_left fun k hk => h k (List.mem_range.1 hk)

@[simp] theorem State.chunk_length (s : State) (n : Nat) : (s.chunk n).length = n := by simp [State.chunk]

@[simp] theorem State.chunk_zero (s : State) : s.chunk 0 = [] := rfl

theorem State.chunk_getElem (s : State) (n k : Nat) (h : k < (s.chunk n).length) : (s.chunk n)[k] = s.bufByte k := by
  simp [State.chunk]

/-- A chunk of at least one byte begins with `buf[0]`. -/
theorem State.chunk_succ (s : State) (n : Nat) :
    s.chunk (n + 1) = s.bufByte 0 :: (List.range n).map fun k => s.bufByte (k + 1) := by
  simp [State.chunk, List.range_succ_eq_map, Function.comp_def]

/-- The chunk the byte sum and the CRC see: its first byte incremented (R121, R133). -/
theorem State.chunk_sigIncrement (s : State) (n : Nat) : s.sigIncrement.chunk n = bumpFirst (s.chunk n) := by
  cases n with
  | zero => rfl
  | succ n =>
    simp only [State.chunk_succ, bumpFirst, State.sigIncrement, State.bufByte_storeByte_same, List.cons.injEq, true_and]
    exact List.map_congr_left fun k _ => State.bufByte_storeByte_other _ _ _ _ (by omega)

end Sys2Proof.Machine
end

