-- ==== Sys2Proof/Laws/Units.lean ====
section
/-! SUPPORT. The units, word by word and byte by byte. -/

namespace Sys2Proof.Machine

@[simp] theorem widen_eq (b : Byte) : widen b = b.setWidth 32 := rfl

/-! ### Mixer -/

theorem mixShort_zero (acc : Vector Word 12) (bytes : List Byte) :
    (mixShort acc bytes)[0] = rotl32 (acc[0] ^^^ polyhash bytes) 1 := by
  simp [mixShort, mixSlot]

theorem mixShort_other (acc : Vector Word 12) (bytes : List Byte) (i : Nat) (hi : i < 12) (h0 : i ≠ 0) :
    (mixShort acc bytes)[i] = acc[i] := by
  simp [mixShort, Ne.symm h0]

theorem mixFull_slot (acc : Vector Word 12) (bytes : List Byte) (i : Nat) (hi : i < 8) :
    (mixFull acc bytes)[i] = rotl32 (acc[i] ^^^ polyhash ((bytes.drop (128 * i)).take 128)) (i + 1) := by
  simp [mixFull, mixSlot, subBlock, byteRange, Config.slots, Config.subBlock, hi]

theorem mixFull_other (acc : Vector Word 12) (bytes : List Byte) (i : Nat) (hi : i < 12) (h8 : 8 ≤ i) :
    (mixFull acc bytes)[i] = acc[i] := by
  simp [mixFull, Config.slots, Nat.not_lt.2 h8]

/-- The mixer writes `acc[0..7]` only (R12). -/
theorem State.mixStep_acc_other (L : BitVec 11) (s : State) (i : Nat) (hi : i < 12) (h8 : 8 ≤ i) :
    (s.mixStep L).acc[i] = s.acc[i] := by
  rw [getElem_congr_coll (State.mixStep_acc s L)]
  split
  · exact mixShort_other _ _ _ _ (by omega)
  · exact mixFull_other _ _ _ _ h8

/-! ### Signature -/

theorem State.sigMix_word (L : BitVec 11) (s : State) (i : Nat) (hi : i < 4) :
    (s.sigMix L).sig[i] = if i < leadLength L then s.sig[i] ^^^ (s.bufByte i).setWidth 32 else s.sig[i] := by
  simp [State.sigMix]

theorem State.sigFinalise_word (c : Constants) (s : State) (i : Nat) (hi : i < 4) :
    (s.sigFinalise c).sig[i] =
      if i < leadLength s.llast then s.sig[i] ^^^ (c.k2[i] ^^^ (s.bufByte i).setWidth 32) else s.sig[i] := by
  by_cases h : i < leadLength s.llast <;> simp [State.sigFinalise, State.sigTmp, h]

/-! ### Blank test -/

@[simp] theorem isBlank_nil : isBlank [] = true := rfl

/-! ### Initial accumulator and renderer -/

theorem initialAcc_slot (c : Constants) (i : Nat) (hi : i < 8) : (initialAcc c)[i] = c.iv[i] := by
  simp [initialAcc, hi]

theorem initialAcc_rest (c : Constants) (i : Nat) (hi : i < 12) (h8 : 8 ≤ i) : (initialAcc c)[i] = 0 := by
  simp [initialAcc, Nat.not_lt.2 h8]

theorem renderedText_char (acc : Vector Word 12) (j : Nat) (hj : j < 72) :
    (renderedText acc)[j] =
      hexChar ((acc[j / 2 / 4]'(by omega)).extractLsb' (8 * (j / 2 % 4)) 8) (j % 2 == 1) := by
  simp [renderedText, imageByte, wordByte, Config.byteOrder]

/-- `RENDER` as a record update, for proofs that must not unfold the text. -/
theorem State.renderText_eq (s : State) : s.renderText = { s with txt := renderedText s.acc } := rfl

/-- Every initial value `IV[i]` is non-zero (R7). -/
theorem iv_ne_zero (i : Nat) (hi : i < 8) : Config.iv[i] ≠ 0 := by
  have hlt := (Config.ivPred[i]).isLt
  intro h
  have := congrArg BitVec.toNat h
  simp [Config.iv] at this
  omega

end Sys2Proof.Machine
end

