-- ==== Sys2Proof/Laws/Commands.lean ====
section
/-! SUPPORT. What the checks, the commands and a step can do, each said once. -/

namespace Sys2Proof.Machine

/-! ### The checks of R80 -/

theorem gate_halted {ok : Bool} {legal : Phase → Bool} {f : State → State} {s : State} (he : s.err = true) :
    gate ok legal f s = s := by
  simp [gate, he]

theorem gate_badLength {legal : Phase → Bool} {f : State → State} {s : State} (he : s.err = false) :
    gate false legal f s = s.raiseFault .badLength := by
  simp [gate, he]

theorem gate_badPhase {legal : Phase → Bool} {f : State → State} {s : State} (he : s.err = false)
    (hl : legal s.phase = false) : gate true legal f s = s.raiseFault .badPhase := by
  simp [gate, he, hl]

theorem gate_effect {legal : Phase → Bool} {f : State → State} {s : State} (he : s.err = false)
    (hl : legal s.phase = true) : gate true legal f s = f s := by
  simp [gate, he, hl]

/-- Everything a command can do behind its checks. -/
theorem gate_cases (ok : Bool) (legal : Phase → Bool) (f : State → State) (s : State) :
    (s.err = true ∧ gate ok legal f s = s) ∨
    (s.err = false ∧ ok = false ∧ gate ok legal f s = s.raiseFault .badLength) ∨
    (s.err = false ∧ ok = true ∧ legal s.phase = false ∧ gate ok legal f s = s.raiseFault .badPhase) ∨
    (s.err = false ∧ ok = true ∧ legal s.phase = true ∧ gate ok legal f s = f s) := by
  unfold gate
  cases s.err <;> cases ok <;> cases legal s.phase <;> simp

/-- Everything a word that is no command can do. -/
theorem illegalCommand_cases (s : State) :
    (s.err = true ∧ illegalCommand s = s) ∨ (s.err = false ∧ illegalCommand s = s.raiseFault .illegalCmd) := by
  unfold illegalCommand
  cases s.err <;> simp

/-! ### ABSORB -/

theorem lengthOk_iff (L : BitVec 11) : lengthOk L = true ↔ L.toNat ≤ 1024 := by
  rw [lengthOk, decide_eq_true_eq]; rfl

/-- Everything `ABSORB L` can do in its legal phases: discarded, blank, processed (R82, R83, R85). -/
theorem absorbEffect_cases (L : BitVec 11) (s : State) :
    (s.phase = .stopped ∧ s.absorbEffect L = s) ∨
    (s.phase ≠ .stopped ∧ isBlank (s.chunk L.toNat) = true ∧ s.absorbEffect L = (s.noteLength L).setPhase .stopped) ∨
    (s.phase ≠ .stopped ∧ isBlank (s.chunk L.toNat) = false ∧
      s.absorbEffect L = (s.noteLength L).processChunk L) := by
  have hchunk : (s.noteLength L).chunk L.toNat = s.chunk L.toNat := State.chunk_congr _ fun _ _ => rfl
  unfold State.absorbEffect State.absorbChunk
  by_cases hp : s.phase = .stopped
  · simp [hp]
  · simp only [hp, if_false, hchunk]
    cases isBlank (s.chunk L.toNat) <;> simp [hp]

section processed

variable (L : BitVec 11) (s : State)

theorem State.processChunk_phase : (s.processChunk L).phase = s.phase := rfl
theorem State.processChunk_err : (s.processChunk L).err = s.err := rfl
theorem State.processChunk_ecode : (s.processChunk L).ecode = s.ecode := rfl
theorem State.processChunk_llast : (s.processChunk L).llast = s.llast := rfl
theorem State.processChunk_txt : (s.processChunk L).txt = s.txt := rfl
theorem State.processChunk_bus : (s.processChunk L).bus = s.bus := rfl
theorem State.processChunk_reply : (s.processChunk L).reply = s.reply := rfl
theorem State.processChunk_tick : (s.processChunk L).tick = s.tick := rfl
theorem State.processChunk_pos : (s.processChunk L).pos = s.pos + L.setWidth 32 := rfl
theorem State.processChunk_buf : (s.processChunk L).buf = s.sigIncrement.buf := rfl

theorem State.processChunk_bufByte (k : Nat) : (s.processChunk L).bufByte k = s.sigIncrement.bufByte k := rfl

theorem State.processChunk_sum :
    (s.processChunk L).sum = s.sum + (byteSum (bumpFirst (s.chunk L.toNat))).setWidth 32 := by
  rw [← State.chunk_sigIncrement]; rfl

theorem State.processChunk_acc :
    (s.processChunk L).acc =
      (s.mixStep L).acc.set 8 ((s.mixStep L).acc[8] ^^^ crc32 (bumpFirst (s.chunk L.toNat))) := by
  rw [← State.chunk_sigIncrement]; rfl

theorem State.processChunk_acc_crc :
    (s.processChunk L).acc[8] = s.acc[8] ^^^ crc32 (bumpFirst (s.chunk L.toNat)) := by
  rw [getElem_congr_coll (State.processChunk_acc L s), Vector.getElem_set_self, State.mixStep_acc_other _ _ _ _ (by omega)]

theorem State.processChunk_acc_other (i : Nat) (hi : i < 12) (h8 : i ≠ 8) :
    (s.processChunk L).acc[i] = (s.mixStep L).acc[i] := by
  rw [getElem_congr_coll (State.processChunk_acc L s), Vector.getElem_set_ne _ _ (Ne.symm h8)]

theorem State.processChunk_sig (i : Nat) (hi : i < 4) :
    (s.processChunk L).sig[i] =
      if i < leadLength L then s.sig[i] ^^^ (s.sigIncrement.bufByte i).setWidth 32 else s.sig[i] :=
  State.sigMix_word L (s.mixStep L).sigIncrement i hi

end processed

/-! ### FINAL and RENDER -/

section final

variable (c : Constants) (s : State)

@[simp] theorem State.finalEffect_sig : (s.finalEffect c).sig = (s.sigFinalise c).sig := rfl
@[simp] theorem State.finalEffect_pos : (s.finalEffect c).pos = s.pos := rfl
@[simp] theorem State.finalEffect_sum : (s.finalEffect c).sum = s.sum := rfl
@[simp] theorem State.finalEffect_llast : (s.finalEffect c).llast = s.llast := rfl
@[simp] theorem State.finalEffect_phase : (s.finalEffect c).phase = .final := rfl
@[simp] theorem State.finalEffect_err : (s.finalEffect c).err = s.err := rfl
@[simp] theorem State.finalEffect_ecode : (s.finalEffect c).ecode = s.ecode := rfl
@[simp] theorem State.finalEffect_buf : (s.finalEffect c).buf = s.buf := rfl
@[simp] theorem State.finalEffect_txt : (s.finalEffect c).txt = s.txt := rfl
@[simp] theorem State.finalEffect_bus : (s.finalEffect c).bus = s.bus := rfl
@[simp] theorem State.finalEffect_reply : (s.finalEffect c).reply = s.reply := rfl
@[simp] theorem State.finalEffect_tick : (s.finalEffect c).tick = s.tick := rfl

theorem State.finalEffect_acc :
    (s.finalEffect c).acc = ((s.acc.set 9 s.pos).set 10 s.sum).set 11 (s.sigFinalise c).sig[0] := rfl

/-- Assembly writes `acc[9..11]` only (R150). -/
theorem State.finalEffect_acc_other (i : Nat) (hi : i < 9) : (s.finalEffect c).acc[i] = s.acc[i] := by
  rw [getElem_congr_coll (State.finalEffect_acc c s), Vector.getElem_set_ne _ _ (by omega),
    Vector.getElem_set_ne _ _ (by omega), Vector.getElem_set_ne _ _ (by omega)]

end final

/-- BUF reads the same after `RENDER`. -/
@[simp] theorem State.bufByte_renderText (s : State) (k : Nat) : s.renderText.bufByte k = s.bufByte k :=
  State.bufByte_congr (State.renderText_buf s) (State.renderText_tick s) k

/-! ### exec and step -/

/-- Every command answers a next state: the effect behind its checks (R160, R192). -/
theorem exec_eq (i : Instr) (s : State) :
    exec i s = .next (match i with
      | .init => gate true initLegal (State.initialise Config.constants) s
      | .absorb L => absorbCommand L s
      | .eos => absorbCommand 0 s
      | .final => gate true finalLegal (State.finalEffect Config.constants) s
      | .render => gate true renderLegal State.renderText s) := by
  cases i <;> rfl

/-! ### Host reads of registers that are unspecified in phase IDLE -/

theorem State.specifiedWord_idle {s : State} (h : s.phase = .idle) (offset : Nat) (v : Word) :
    s.specifiedWord offset v = Config.freeWord s.tick offset := by simp [State.specifiedWord, h]

theorem State.specifiedWord_not_idle {s : State} (h : s.phase ≠ .idle) (offset : Nat) (v : Word) :
    s.specifiedWord offset v = v := by simp [State.specifiedWord, h]

theorem State.specifiedLength_idle {s : State} (h : s.phase = .idle) (offset : Nat) (v : BitVec 11) :
    s.specifiedLength offset v = (Config.freeWord s.tick offset).setWidth 11 := by simp [State.specifiedLength, h]

theorem State.specifiedLength_not_idle {s : State} (h : s.phase ≠ .idle) (offset : Nat) (v : BitVec 11) :
    s.specifiedLength offset v = v := by simp [State.specifiedLength, h]

/-- LLAST is zero-extended in every phase (R21, R45): the value that its read puts in the reply has bits 31:11 zero. -/
theorem extract_high_of_length (v : BitVec 11) : (v.setWidth 32).extractLsb' 11 21 = 0 := by
  ext i hi
  simp

/-! ### Steps -/

@[simp] theorem locate_cmd : locate 0x400 = .cmd := rfl

theorem step_nil {s : State} (h : s.bus = []) : step s = .next s := by simp [step, h]

theorem step_cons {s : State} {a : HostAccess} {rest : List HostAccess} (h : s.bus = a :: rest) :
    step s = hostAccess a (s.takeAccess rest) := by simp [step, h]

/-- A write to CMD is the command the word encodes, or the illegal word's fault. -/
theorem step_command {s : State} {w : Word} {rest : List HostAccess} (h : s.bus = .write32 0x400 w :: rest) :
    step s = writeCommand w (s.takeAccess rest) := step_cons h

theorem writeCommand_ok {w : Word} {i : Instr} (h : decode w = .ok i) (s : State) : writeCommand w s = exec i s := by
  simp [writeCommand, h]

theorem writeCommand_error {w : Word} {e : DecodeReject} (h : decode w = .error e) (s : State) :
    writeCommand w s = .next (illegalCommand s) := by
  simp [writeCommand, h]

/-- `EOS` is `ABSORB 0` (R66). -/
theorem exec_eos_eq (s : State) : exec .eos s = .next (absorbCommand 0 s) := rfl

end Sys2Proof.Machine
end

