-- ==== Sys2Proof/Laws/PerInstr.lean ====
section
/-! SUPPORT. One statement per constructor: the encoded word fits the instruction's row of the opcode table (R62). -/

namespace Sys2Proof.Laws.TableWord

/-- The word of an instruction agrees with its table row in every bit the row fixes. -/
def Statement (i : Instr) : Prop := encode i &&& (tableRow i).mask = (tableRow i).pattern

theorem init : Statement .init := by unfold Statement; decide

/-- The mask keeps `op` and `z` and clears `L` (R62). -/
theorem absorb (L : BitVec 11) : Statement (.absorb L) := by
  have hmask : ∀ i, i < 32 → (0xFFFFF800#32).getLsbD i = decide (11 ≤ i) := by decide
  have hzero : encode (.absorb 0) = 0x20000000#32 := by decide
  have hlow : ∀ i, i < 11 → (0x20000000#32).getLsbD i = false := by decide
  apply BitVec.eq_of_getLsbD_eq
  intro i hi
  show ((formatC opAbsorb 0 L) &&& 0xFFFFF800#32).getLsbD i = (0x20000000#32).getLsbD i
  rw [BitVec.getLsbD_and, hmask i hi]
  by_cases h : i < 11
  · simp [hlow i h, h]
  · rw [← hzero]
    simp [encode, getLsbD_formatC, h, Nat.not_lt.1 h]

theorem eos : Statement .eos := by unfold Statement; decide

theorem final : Statement .final := by unfold Statement; decide

theorem render : Statement .render := by unfold Statement; decide

end Sys2Proof.Laws.TableWord
end

