-- ==== Sys2Proof/Tests/Slice0.lean ====
section
/-! SUPPORT. Small tests whose expected values are the spec's worked examples (spec/95_test_vectors.md and the unit files),
the refusals of WellFormed, and one witness for the hypotheses of every obligation that has some. -/

namespace Sys2Proof.Tests

open Sys2Proof.Machine

/-! ### WellFormed and decode (spec/95_test_vectors.md 2.1) -/

theorem test_wf_refuses_eos : Instr.wf .eos = false := by decide
theorem test_wf_accepts_longest : Instr.wf (.absorb 2047) = true := by decide

theorem test_decode_init : decode 0b00010000000000000000000000000000#32 = .ok .init := by decide
theorem test_decode_absorb_4 : decode 0b00100000000000000000000000000100#32 = .ok (.absorb 4) := by decide
theorem test_decode_absorb_2047 : decode 0x200007FF#32 = .ok (.absorb 2047) := by decide
theorem test_decode_eos_word : decode 0b00100000000000000000000000000000#32 = .ok (Instr.expand .eos) := by decide
theorem test_decode_final : decode 0b00110000000000000000000000000000#32 = .ok .final := by decide
theorem test_decode_render : decode 0b01000000000000000000000000000000#32 = .ok .render := by decide
theorem test_decode_zero : decode 0x00000000#32 = .error .reservedOpcode := by decide
theorem test_decode_op5 : decode 0x50000000#32 = .error .reservedOpcode := by decide
theorem test_decode_init_bit0 : decode 0x10000001#32 = .error .reservedBits := by decide
theorem test_decode_absorb_bit11 : decode 0x20000800#32 = .error .reservedBits := by decide
theorem test_decode_final_with_L : decode 0x30000400#32 = .error .reservedBits := by decide
theorem test_table_word : decodeTableWord 32 0x20000400 = some (.absorb 1024) := by decide

/-! ### States of the test configuration TESTCFG (spec/95_test_vectors.md 0) -/

def testConstants : Constants where
  iv := #v[0x00000001, 0x80000000, 0x12345678, 0x9ABCDEF0, 0xDEADBEEF, 0x0BADF00D, 0xCAFEBABE, 0xFFFFFFFF]
  sigiv := #v[0x000000A5, 0x00005A00, 0x00C30000, 0x3C000000]
  k2 := #v[0x11000000, 0x00220000, 0x00003300, 0x00000044]

/-- BUF beginning with the given bytes. -/
def bufOf (bytes : List Byte) : Memory := bytes.zipIdx.map fun p => (p.2, p.1)

/-- The state after `INIT` under TESTCFG, with BUF beginning with the given bytes. -/
def afterInit (bytes : List Byte) : State := { State.reset.initialise testConstants with buf := bufOf bytes }

def testBytes : List Byte := [0x74, 0x65, 0x73, 0x74]

/-- The state after `ABSORB 4` of "test" (R82's example), written out from the spec. -/
def afterTest : State :=
  { afterInit [0x75, 0x65, 0x73, 0x74] with
    acc := (afterInit []).acc.set 0 0x1C8584E6 |>.set 8 0x60C31969
    sig := #v[0x000000D0, 0x00005A65, 0x00C30073, 0x3C000074]
    sum := 193
    pos := 4
    llast := 4 }

/-! ### The units -/

theorem test_polyhash_test : polyhash testBytes = 0x0E42C272 := by decide
theorem test_polyhash_wraps : polyhash (List.replicate 5 0xFF) = 0x915E01FF := by decide
theorem test_rotl32_wraps : rotl32 0x80000000 1 = 0x00000001 := by decide
theorem test_rotl32_five : rotl32 0xDEADBEEF 5 = 0xD5B7DDFB := by decide
theorem test_mixFull_seven :
    (mixFull (afterInit []).acc (List.replicate 896 0 ++ List.replicate 128 0xFF))[7] =
      rotl32 (0xFFFFFFFF ^^^ 0xB80FE000) 8 := by decide +kernel
theorem test_byteSum_abc : byteSum [0x61, 0x62, 0x63] = 38 := by decide
theorem test_byteSum_wraps : byteSum [0xFF, 0xFF] = 254 := by decide
theorem test_crc32_check_value :
    crc32 [0x31, 0x32, 0x33, 0x34, 0x35, 0x36, 0x37, 0x38, 0x39] = 0xCBF43926 := by decide +kernel
theorem test_crc32_ff : crc32 [0xFF] = 0xFF000000 := by decide
theorem test_crcTable_one : crcTable 1 = 0x77073096 := by decide
theorem test_blank_class : isBlank [0x20, 0x09, 0x0A, 0x0B, 0x0C, 0x0D] = true := by decide
theorem test_not_blank : isBlank [0x20, 0x00] = false ∧ isBlank [0x08] = false ∧ isBlank [0xA0] = false := by decide
theorem test_hexDigit : hexDigit 9 = 0x39 ∧ hexDigit 10 = 0x61 := by decide
theorem test_imageByte : imageByte (afterInit []).acc 11 = 0x12 ∧ imageByte (afterInit []).acc 8 = 0x78 := by decide

/-! ### The commands -/

/-- R81's example. -/
theorem test_init : (gate true initLegal (State.initialise testConstants) State.reset).statusWord = 0x00000001 ∧
    (State.reset.initialise testConstants).sig[0] = 0x000000A5 := by decide

/-- R82's example, register by register. -/
theorem test_absorb_test :
    (absorbCommand 4 (afterInit testBytes)).acc = afterTest.acc ∧
    (absorbCommand 4 (afterInit testBytes)).sig = afterTest.sig ∧
    (absorbCommand 4 (afterInit testBytes)).sum = 193 ∧
    (absorbCommand 4 (afterInit testBytes)).buf = afterTest.buf := by decide +kernel

/-- spec/95_test_vectors.md 2.8: `ABSORB 1` of [0xFF]. -/
theorem test_absorb_ff :
    (absorbCommand 1 (afterInit [0xFF])).buf = [(0, 0x00)] ∧
    (absorbCommand 1 (afterInit [0xFF])).acc[0] = 0x000001FC ∧
    (absorbCommand 1 (afterInit [0xFF])).sig[0] = 0x000000A5 := by decide

/-- spec/95_test_vectors.md 2.2: `EOS` in phase ABSORB. -/
theorem test_eos : exec .eos afterTest = .next (afterTest.setPhase .stopped) ∧
    (afterTest.setPhase .stopped).statusWord = 0x00000002 := ⟨rfl, by decide⟩

/-- R86's example. -/
theorem test_final :
    (gate true finalLegal (State.finalEffect testConstants) afterTest).sig =
      #v[0x110000A5, 0x00225A00, 0x00C33300, 0x3C000044] ∧
    (gate true finalLegal (State.finalEffect testConstants) afterTest).acc[11] = 0x110000A5 ∧
    (gate true finalLegal (State.finalEffect testConstants) afterTest).acc[10] = 0x000000C1 := by decide

/-- R88's example: "e684851c" and "6919c360". -/
theorem test_render :
    (renderedText afterTest.acc).toList.take 8 = [0x65, 0x36, 0x38, 0x34, 0x38, 0x35, 0x31, 0x63] ∧
    (renderedText afterTest.acc).toList.drop 64 = [0x36, 0x39, 0x31, 0x39, 0x63, 0x33, 0x36, 0x30] := by decide +kernel

/-- spec/95_test_vectors.md P6: `ABSORB 4` in phase IDLE is BAD_PHASE, and `INIT` is then ignored. -/
theorem test_faults :
    (absorbCommand 4 State.reset).statusWord = 0x00000034 ∧
    exec .init (absorbCommand 4 State.reset) = .next (absorbCommand 4 State.reset) ∧
    (absorbCommand 1025 (afterInit [])).statusWord = 0x00000025 := ⟨by decide, rfl, by decide⟩

/-! ### The step and the host's accesses -/

theorem test_step_runs_init :
    ∃ t, step (State.reset.withFetchWord 32 0x10000000) = .next t ∧ t.phase = .absorb ∧ t.sum = 0 :=
  ⟨_, rfl, rfl, rfl⟩

theorem test_step_illegal_word :
    ∃ t, step (State.reset.withFetchWord 32 0x00000000) = .next t ∧ t.statusWord = 0x00000014 :=
  ⟨_, rfl, by decide⟩

theorem test_write_then_read_buf :
    Host.Core.run core 2 { State.reset with bus := [.write8 0x3FF 0xAB, .read8 0x3FF] } =
      .next { State.reset with buf := [(0x3FF, 0xAB)], reply := some (.byte 0xAB), tick := 2 } := rfl

/-- R45: "`llast`, zero-extended", in phase IDLE too, where only the 11 bits of `llast` are free. -/
theorem test_idle_llast_zero_extended :
    ∃ (v : Word) (t : State), step { State.reset with bus := [.read32 0x410] } = .next t ∧ t.reply = some (.word v) ∧
      v.extractLsb' 11 21 = 0 :=
  ⟨_, _, rfl, rfl, extract_high_of_length _⟩

theorem test_misaligned_refused :
    step { State.reset with bus := [.read32 0x402] } = .refused (.misaligned 0x402) := rfl

theorem test_reserved_refused :
    step { State.reset with bus := [.write32 0x414 0] } = .refused (.reservedOffset 0x414) := rfl

theorem test_wide_buf_refused :
    step { State.reset with bus := [.read32 0] } = .refused (.wrongWidth 0) := rfl

theorem test_beyond_window_refused :
    step { State.reset with bus := [.read8 0x800] } = .refused (.outsideWindow 0x800) := rfl

theorem test_address_map_corners :
    locate 0x3FF = .buf 1023 ∧ locate 0x410 = .llast ∧ locate 0x46C = .acc 11 ∧ locate 0x470 = .sig 0 ∧
    locate 0x47C = .sig 3 ∧ locate 0x480 = .txt 0 ∧ locate 0x4C7 = .txt 71 ∧ locate 0x4C8 = .reserved ∧
    locate 0x7FF = .reserved := by decide

/-! ### Witnesses: a concrete state and operands that meet each obligation's hypotheses -/

theorem witness_DecodeOfEncodeIsTheInstruction : ∃ i : Instr, i.wf = true := ⟨.absorb 2047, by decide⟩

theorem witness_EncodeOfDecodeIsTheWord : ∃ (w : Word) (i : Instr), decode w = .ok i :=
  ⟨0x20000401, .absorb 1025, by decide⟩

/-- One word for each of R64's four ways to be illegal, at the edges of their ranges. -/
theorem witness_IllegalWordsRaiseIllegalCmd :
    (∀ w ∈ [0x00000000#32, 0x0FFFFFFF#32, 0x50000000#32, 0xFFFFFFFF#32, 0x10000001#32, 0x48000000#32, 0x20000800#32,
        0x28000004#32],
      let op := (w >>> 28).toNat
      op = 0 ∨ 5 ≤ op ∨ ((op = 1 ∨ op = 3 ∨ op = 4) ∧ w.extractLsb' 0 28 ≠ 0) ∨
        (op = 2 ∧ w.extractLsb' 11 17 ≠ 0)) ∧
    ∀ w, (State.reset.withCommand w).err = false ∧ (State.reset.withCommand w).bus = .write32 0x400 w :: [] :=
  ⟨by simp, fun _ => ⟨rfl, rfl⟩⟩

theorem witness_StepRunsTheDecodedCommand :
    ∃ (w : Word) (i : Instr) (s : State) (rest : List HostAccess), s.bus = .write32 0x400 w :: rest ∧ decode w = .ok i :=
  ⟨0x30000000, .final, afterTest.withCommand 0x30000000, [], rfl, by decide⟩

theorem witness_StepCompletesExactlyOnLegalAccesses :
    ∃ (a b : HostAccess) (s t : State), s.bus = a :: [] ∧ a.legal ∧ t.bus = b :: [] ∧ ¬b.legal :=
  ⟨.read32 0x47C, .read32 0x47D, { State.reset with bus := [.read32 0x47C] },
    { State.reset with bus := [.read32 0x47D] }, rfl, by decide, rfl, by decide⟩

theorem witness_HardwareResetClearsStatus : ∃ (s : State) (rest : List HostAccess), s.bus = .hardwareReset :: rest :=
  ⟨{ afterTest.raiseFault .badPhase with bus := [.hardwareReset] }, [], rfl⟩

theorem witness_EveryStepKeepsInv : ∃ s s' : State, s.Inv ∧ step s = .next s' :=
  ⟨{ afterTest with bus := [.write8 1023 7] }, _, by decide, rfl⟩

theorem witness_EveryStepKeepsInv_final : ({ afterTest.finalEffect testConstants with bus := [] } : State).Inv := by
  decide +kernel

theorem witness_IdleConsumesNoUnspecifiedRegister :
    ∃ (i : Instr) (s t s' t' : State), s.sameControl t ∧ s ≠ t ∧ s.phase = .idle ∧ exec i s = .next s' ∧
      exec i t = .next t' ∧ s'.phase ≠ .idle :=
  ⟨.init, State.reset, { State.reset with pos := 7 }, _, _, by decide, by decide, rfl, rfl, rfl, by decide⟩

theorem witness_HaltedEngineIgnoresCommands :
    ∃ (s : State) (w : Word) (rest : List HostAccess), s.err = true ∧ s.bus = .write32 0x400 w :: rest :=
  ⟨(State.reset.raiseFault .badPhase).withCommand 0x10000000, _, _, rfl, rfl⟩

theorem witness_OnlyHardwareResetClearsTheFault : ∃ s s' : State, s.err = true ∧ step s = .next s' :=
  ⟨(State.reset.raiseFault .badPhase).withCommand 0x10000000, _, rfl, rfl⟩

theorem witness_AbsorbTooLongRaisesBadLength :
    ∃ (L M : BitVec 11) (s : State), s.err = false ∧ L.toNat = 1025 ∧ M.toNat = 2047 :=
  ⟨1025, 2047, State.reset, by decide⟩

theorem witness_CommandsInWrongPhaseRaiseBadPhase :
    State.reset.err = false ∧ State.reset.phase = .idle ∧ (1024#11).toNat ≤ 1024 ∧
    (State.setPhase .final afterTest).err = false ∧ (State.setPhase .final afterTest).phase = .final ∧
    afterTest.phase = .absorb ∧ (State.setPhase .stopped afterTest).phase = .stopped := by decide

theorem witness_FirstCauseIsReported :
    (∀ w : Word, (State.reset.withCommand w).err = false ∧ (State.reset.withCommand w).phase = .idle ∧
      (State.reset.withCommand w).bus = .write32 0x400 w :: []) ∧
    decode 0x20000C01#32 = .error .reservedBits ∧ decode 0x20000401#32 = .ok (.absorb 1025) ∧
    decode 0x20000400#32 = .ok (.absorb 1024) :=
  ⟨fun _ => ⟨rfl, rfl, rfl⟩, by decide⟩

theorem witness_PhaseChangesOnlyAsTheTableSays : ∃ s s' : State, step s = .next s' ∧ s'.phase ≠ s.phase :=
  ⟨State.reset.withCommand 0x10000000, _, rfl, by decide⟩

theorem witness_InitCreatesTheComputation : ∃ s : State, s.err = false := ⟨afterTest, rfl⟩

theorem witness_InitLeavesNonZeroSlots : ∃ s : State, s.err = false := ⟨State.reset, rfl⟩

theorem witness_InitCutsOffTheOldComputation :
    ∃ s t : State, s ≠ t ∧ s.err = false ∧ t.err = false ∧ s.ecode = t.ecode ∧ s.bus = t.bus ∧ s.reply = t.reply ∧
      s.tick = t.tick :=
  ⟨afterTest, State.reset, by decide, rfl, rfl, rfl, rfl, rfl, rfl⟩

theorem witness_OnlyNamedBytesReachTheNewComputation :
    ∃ (later : List Instr) (L : BitVec 11) (s t : State), .absorb L ∈ later ∧ L ≠ 0 ∧ s.buf ≠ t.buf ∧ s.err = false ∧
      t.err = false ∧ s.ecode = t.ecode ∧ s.bus = t.bus ∧ s.reply = t.reply ∧ s.tick = t.tick ∧
      ∀ L, .absorb L ∈ later → L.toNat ≤ 1024 → ∀ k, k < L.toNat → s.bufByte k = t.bufByte k :=
  ⟨[.absorb 2, .final], 2, afterInit [0x61, 0x62, 0x63], afterInit [0x61, 0x62, 0x64], by decide, by decide, by decide,
    rfl, rfl, rfl, rfl, rfl, rfl, by
      intro L hL _ k hk
      obtain rfl : L = 2 := by simpa using hL
      have h : ∀ k, k < (2#11).toNat →
          (afterInit [0x61, 0x62, 0x63]).bufByte k = (afterInit [0x61, 0x62, 0x64]).bufByte k := by decide
      exact h k hk⟩

theorem witness_AbsorbProcessesAShortChunk :
    (∃ (L : BitVec 11) (s : State), s.err = false ∧ s.phase = .absorb ∧ L.toNat < 1024 ∧
      isBlank (s.chunk L.toNat) = false) ∧
    ∃ s : State, s.err = false ∧ s.phase = .absorb ∧ (1023#11).toNat < 1024 ∧ isBlank (s.chunk (1023#11).toNat) = false := by
  refine ⟨⟨1, afterInit [0x61], by decide⟩, afterInit [0x61], rfl, rfl, by decide, ?_⟩
  rw [show (1023#11).toNat = 1022 + 1 from rfl, State.chunk_succ]
  rfl

theorem witness_AbsorbProcessesAFullChunk :
    ∃ s : State, s.err = false ∧ s.phase = .absorb ∧ isBlank (s.chunk 1024) = false := by
  refine ⟨afterInit [0x61], rfl, rfl, ?_⟩
  rw [show 1024 = 1023 + 1 from rfl, State.chunk_succ]
  rfl

theorem witness_AbsorbOfABlankChunkStops :
    ∃ (L M : BitVec 11) (s : State), s.err = false ∧ s.phase = .absorb ∧ L.toNat ≤ 1024 ∧ L ≠ 0 ∧
      isBlank (s.chunk L.toNat) = true ∧ M = 0 ∧ isBlank (s.chunk M.toNat) = true :=
  ⟨2, 0, afterInit [0x20, 0x0A, 0x61], by decide⟩

theorem witness_AbsorbIsDiscardedWhenStopped :
    ∃ (L M : BitVec 11) (s : State), s.err = false ∧ s.phase = .stopped ∧ L.toNat = 1024 ∧ M.toNat = 1025 :=
  ⟨1024, 1025, afterTest.setPhase .stopped, by decide⟩

theorem witness_AbsorbIsDiscardedWhenStopped_leaving :
    ∃ (i : Instr) (s t : State), s.phase = .stopped ∧ exec i s = .next t ∧ t.phase ≠ .stopped :=
  ⟨.init, afterTest.setPhase .stopped, _, rfl, rfl, by decide⟩

theorem witness_NoAbsorbChangesAnythingAfterTheStop :
    ∃ (Ls : List (BitVec 11)) (s : State), Ls ≠ [] ∧ s.err = false ∧ s.phase = .stopped ∧ ∀ L ∈ Ls, L.toNat ≤ 1024 :=
  ⟨[0, 4, 1024], afterTest.setPhase .stopped, by decide, rfl, rfl, by decide⟩

theorem witness_EosStopsTheStream :
    afterTest.err = false ∧ afterTest.phase = .absorb ∧ (afterTest.setPhase .stopped).phase = .stopped := by decide

theorem witness_AbsorbReadsOnlyItsChunk :
    ∃ (L : BitVec 11) (s t : State), s ≠ t ∧ s.sameButBuf t ∧ ∀ k, k < L.toNat → s.bufByte k = t.bufByte k :=
  ⟨2, afterInit [0x61, 0x62, 0x63], afterInit [0x61, 0x62, 0x64], by decide, rfl, by decide⟩

theorem witness_CommandsWriteAtMostTheFirstByteOfBuf :
    ∃ (i : Instr) (s t : State), exec i s = .next t ∧ t.bufByte 0 ≠ s.bufByte 0 :=
  ⟨.absorb 4, afterInit testBytes, _, rfl, by decide⟩

theorem witness_EachRegisterIsWrittenOnlyByItsCommands : ∃ (i : Instr) (s t : State), exec i s = .next t :=
  ⟨.absorb 4, afterInit testBytes, _, rfl⟩

theorem witness_OnlyLowBitsOfSigReceiveData : ∃ (L : BitVec 11) (s t : State), exec (.absorb L) s = .next t :=
  ⟨4, afterInit testBytes, _, rfl⟩

theorem witness_EqualChunksCancelInTheCrc :
    ∃ (c : List Byte) (s t : State), s.err = false ∧ s.phase = .absorb ∧ processable c ∧ Absorbs s [c, c] t :=
  ⟨[0x61], afterInit [], _, rfl, rfl, by decide,
    .cons _ _ _ (afterInit [0x61]) _ _ ⟨⟨_, _, _, _, rfl⟩, by decide⟩ rfl
      (.cons _ _ _ ((absorbCommand 1 (afterInit [0x61])).storeByte 0 0x61) _ _ ⟨⟨_, _, _, _, rfl⟩, by decide⟩ rfl (.nil _))⟩

theorem witness_ProcessedChunksInClosedForm :
    ∃ (cs : List (List Byte)) (s t : State), cs ≠ [] ∧ s.err = false ∧ s.phase = .absorb ∧ (∀ c ∈ cs, processable c) ∧
      Absorbs s cs t :=
  ⟨[testBytes], afterInit [], _, by decide, rfl, rfl, by decide,
    .cons _ _ _ (afterInit testBytes) _ _ ⟨⟨_, _, _, _, rfl⟩, by decide⟩ rfl (.nil _)⟩

theorem witness_FinalFinalisesAndAssembles :
    ∃ s t : State, s.err = false ∧ s.phase = .absorb ∧ t.err = false ∧ t.phase = .stopped :=
  ⟨afterTest, afterTest.setPhase .stopped, by decide⟩

theorem witness_FinalNeedsNoEos : ∃ s : State, s.err = false ∧ s.phase = .absorb := ⟨afterTest, by decide⟩

theorem witness_SingleChunkCancelsInTheSignature :
    ∃ (L : BitVec 11) (s : State), s.err = false ∧ s.phase = .absorb ∧ 4 ≤ L.toNat ∧ L.toNat ≤ 1024 ∧
      isBlank (s.chunk L.toNat) = false :=
  ⟨4, afterInit testBytes, by decide⟩

theorem witness_RenderWritesTheDigestText : ∃ s : State, s.err = false ∧ s.phase = .final :=
  ⟨afterTest.setPhase .final, by decide⟩

theorem witness_RenderIsRepeatable : ∃ s : State, s.err = false ∧ s.phase = .final :=
  ⟨afterTest.setPhase .final, by decide⟩

theorem witness_TextDependsOnTheFirstNineWordsOnly :
    ∃ s t s' t' : State, s ≠ t ∧ s.err = false ∧ t.err = false ∧ s.phase = .final ∧ t.phase = .final ∧
      (∀ i : Fin 9, s.acc[i.val] = t.acc[i.val]) ∧ exec .render s = .next s' ∧ exec .render t = .next t' :=
  ⟨afterTest.setPhase .final, (afterTest.assemble).setPhase .final, _, _, by decide, rfl, rfl, rfl, rfl, by decide,
    rfl, rfl⟩

theorem witness_EmptyStreamLeavesTheConstants : ∃ s : State, s.err = false := ⟨State.reset, rfl⟩

theorem witness_EarlyStopLeavesTheSameDigest :
    ∃ (L : BitVec 11) (later : List (BitVec 11)) (s : State), s.err = false ∧ s.phase = .absorb ∧ L.toNat ≤ 1024 ∧
      isBlank (s.chunk L.toNat) = true ∧ later ≠ [] ∧ ∀ M ∈ later, M.toNat ≤ 1024 :=
  ⟨2, [4, 1024], afterInit [0x20, 0x09], by decide⟩

theorem witness_HostStreamGivesItsDigest :
    ∃ (bytes : List Byte) (s : State), bytes ≠ [] ∧ s.err = false ∧ s.bus = hostStream bytes :=
  ⟨testBytes, { State.reset with bus := hostStream testBytes }, by decide, rfl, rfl⟩

theorem witness_RotateMovesEveryBit : ∃ c j : Nat, 1 ≤ c ∧ c ≤ 31 ∧ j < 32 := ⟨31, 31, by decide⟩

theorem witness_RotateIsLinear : ∃ c : Nat, 1 ≤ c ∧ c ≤ 31 := ⟨1, by decide⟩

theorem witness_IncrementAddsOneToTheByteSum : ∃ bytes : List Byte, bytes ≠ [] := ⟨[0xFF], by decide⟩

/-- Each register offset at the edges of its range, and only registers. -/
theorem witness_HostReadsTheRegisters :
    (∀ o ∈ [0x400, 0x404, 0x408, 0x40C, 0x410, 0x440, 0x46C, 0x470, 0x47C], wordOffset o ∧
      ({ afterTest with bus := [.read32 o] } : State).bus = .read32 o :: [] ∧
      ({ afterTest with bus := [.read32 o] } : State).phase ≠ .idle) ∧
    ∀ o ∈ [0x3FF, 0x402, 0x414, 0x43C, 0x480], ¬wordOffset o := by decide

theorem witness_HostReadsBufAndTxt :
    (∀ k : Fin 1024, ∃ s : State, s.bus = .read8 k.val :: []) ∧
    ∀ k : Fin 72, ∃ s : State, s.bus = .read8 (0x480 + k.val) :: [] :=
  ⟨fun k => ⟨{ afterTest with bus := [.read8 k.val] }, rfl⟩,
    fun k => ⟨{ afterTest with bus := [.read8 (0x480 + k.val)] }, rfl⟩⟩

theorem witness_HostWriteChangesOneByteOfBuf :
    ∃ (s : State) (k : Fin 1024) (v : Byte), k = 1023 ∧ s.bus = .write8 k.val v :: [] :=
  ⟨{ State.reset with bus := [.write8 1023 5] }, 1023, 5, rfl, rfl⟩

theorem witness_WritesToReadOnlyLocationsAreDropped :
    (∀ o ∈ [0x404, 0x410, 0x440, 0x47C], wordOffset o ∧ o ≠ 0x400 ∧
      ({ State.reset with bus := [.write32 o 5] } : State).bus = .write32 o 5 :: []) ∧
    ∀ o ∈ [0x480, 0x4C7], byteOffset o ∧ 0x400 ≤ o ∧
      ({ State.reset with bus := [.write8 o 5] } : State).bus = .write8 o 5 :: [] := by decide

theorem witness_OnlyCommandsAndResetChangeRegisters :
    ∃ (a : HostAccess) (s s' : State) (rest : List HostAccess), s.bus = a :: rest ∧ a.drivesEngine = false ∧
      step s = .next s' :=
  ⟨.write8 0 5, { afterTest with bus := [.write8 0 5] }, _, [], rfl, rfl, rfl⟩

theorem witness_IdleReadGivesAFreeValue :
    ∀ o ∈ [0x408, 0x40C, 0x410, 0x440, 0x46C, 0x470, 0x47C], State.reset.phase = .idle ∧ wordOffset o ∧ o ≠ 0x400 ∧
      o ≠ 0x404 ∧ ({ State.reset with bus := [.read32 o] } : State).bus = .read32 o :: [] := by decide

end Sys2Proof.Tests
end

section
/-! PROOFS. The statements of spec/00_scope.md. -/

namespace Sys2Proof.Machine

/-- `INIT` is legal in every phase (R80, R81), so outside the halted state its effect is taken. -/
theorem exec_init_of_err_false {s : State} (he : s.err = false) :
    exec .init s = .next (s.initialise Config.constants) := by
  rw [exec_eq, gate_effect he rfl]

/-- A mixing slot after `INIT` is the `IV` word of its number, which is non-zero (R7, R81). -/
theorem State.initialise_slot_ne_zero (s : State) (i : Fin 8) :
    (s.initialise Config.constants).acc[i.val] ≠ 0 := by
  have hslot : (s.initialise Config.constants).acc[i.val] = Config.iv[i.val] :=
    initialAcc_slot Config.constants i.val i.isLt
  rw [hslot]
  exact iv_ne_zero i.val i.isLt

/-- Settles O22: the next state is the effect of `INIT`, whose slots hold the words of `IV`. -/
theorem initLeavesNonZeroSlots : Obligations.InitLeavesNonZeroSlots := by
  intro s he
  exact ⟨s.initialise Config.constants, exec_init_of_err_false he, s.initialise_slot_ne_zero⟩

end Sys2Proof.Machine
end

section
/-! PROOFS. The statements of spec/10_state.md. -/

namespace Sys2Proof.Machine

/-! ### What a command can do -/

/-- How the command `i` can take `s` to a next state: one constructor per way through the checks of R80, with what each
way requires of `s`. Which fault a refused command reports is left open. -/
inductive CommandOutcome : Instr → State → State → Prop where
  /-- Halted (R164), or a chunk after the stop (R85). -/
  | ignored {i : Instr} {s : State} (h : s.err = true ∨ (s.phase = .stopped ∧ (i = .eos ∨ ∃ L, i = .absorb L))) :
      CommandOutcome i s s
  /-- A failed check of the length or of the phase (R80, R163). -/
  | faults {i : Instr} {s : State} (f : CmdFault) (herr : s.err = false) : CommandOutcome i s (s.raiseFault f)
  /-- `INIT` (R81). -/
  | starts {s : State} (herr : s.err = false) : CommandOutcome .init s (s.initialise Config.constants)
  /-- A blank chunk or `EOS` (R83). -/
  | stops {i : Instr} {s : State} (L : BitVec 11) (hi : i = .absorb L ∨ (i = .eos ∧ L = 0)) (herr : s.err = false)
      (hphase : s.phase = .absorb) (hL : L.toNat ≤ 1024) (hblank : isBlank (s.chunk L.toNat) = true) :
      CommandOutcome i s ((s.noteLength L).setPhase .stopped)
  /-- A chunk that is not blank (R82). -/
  | processes {s : State} (L : BitVec 11) (herr : s.err = false) (hphase : s.phase = .absorb) (hL : L.toNat ≤ 1024)
      (hblank : isBlank (s.chunk L.toNat) = false) :
      CommandOutcome (.absorb L) s ((s.noteLength L).processChunk L)
  /-- `FINAL` (R86). -/
  | finishes {s : State} (herr : s.err = false) (hphase : s.phase = .absorb ∨ s.phase = .stopped) :
      CommandOutcome .final s (s.finalEffect Config.constants)
  /-- `RENDER` (R88). -/
  | renders {s : State} (herr : s.err = false) (hphase : s.phase = .final) : CommandOutcome .render s s.renderText

/-- Behind the checks, only a command that passes them all has its effect. -/
theorem CommandOutcome.of_gate {i : Instr} {ok : Bool} {legal : Phase → Bool} {f : State → State} {s : State}
    (heffect : s.err = false → ok = true → legal s.phase = true → CommandOutcome i s (f s)) :
    CommandOutcome i s (gate ok legal f s) := by
  obtain ⟨herr, hg⟩ | ⟨herr, -, hg⟩ | ⟨herr, -, -, hg⟩ | ⟨herr, hok, hlegal, hg⟩ := gate_cases ok legal f s
  all_goals rw [hg]
  · exact .ignored (.inl herr)
  · exact .faults .badLength herr
  · exact .faults .badPhase herr
  · exact heffect herr hok hlegal

/-! The phases in which a command is legal, from the table of R80. -/

theorem absorbLegal_iff (p : Phase) : absorbLegal p = true ↔ p = .absorb ∨ p = .stopped := by
  simp [absorbLegal]

theorem finalLegal_iff (p : Phase) : finalLegal p = true ↔ p = .absorb ∨ p = .stopped := absorbLegal_iff p

theorem renderLegal_iff (p : Phase) : renderLegal p = true ↔ p = .final := by
  simp [renderLegal]

/-- `ABSORB L`, under its own name or as `EOS` (R66). -/
theorem CommandOutcome.of_absorbCommand {i : Instr} {L : BitVec 11} (hi : i = .absorb L ∨ (i = .eos ∧ L = 0))
    (s : State) : CommandOutcome i s (absorbCommand L s) := by
  refine .of_gate fun herr hok hlegal => ?_
  have hL := (lengthOk_iff L).1 hok
  obtain ⟨hstopped, he⟩ | ⟨hne, hblank, he⟩ | ⟨hne, hblank, he⟩ := absorbEffect_cases L s
  · rw [he]
    refine .ignored (.inr ⟨hstopped, ?_⟩)
    exact hi.elim (fun h => .inr ⟨L, h⟩) fun h => .inl h.1
  · exact he ▸ .stops L hi herr (((absorbLegal_iff _).1 hlegal).resolve_right hne) hL hblank
  · rw [he]
    obtain rfl | ⟨-, rfl⟩ := hi
    · exact .processes L herr (((absorbLegal_iff _).1 hlegal).resolve_right hne) hL hblank
    · simp at hblank

/-- Everything a command can do, said once. -/
theorem exec_outcome {i : Instr} {s t : State} (h : exec i s = .next t) : CommandOutcome i s t := by
  rw [exec_eq] at h
  injection h with h
  subst h
  cases i with
  | init => exact .of_gate fun herr _ _ => .starts herr
  | absorb L => exact .of_absorbCommand (.inl rfl) s
  | eos => exact .of_absorbCommand (.inr ⟨rfl, rfl⟩) s
  | final => exact .of_gate fun herr _ hlegal => .finishes herr ((finalLegal_iff _).1 hlegal)
  | render => exact .of_gate fun herr _ hlegal => .renders herr ((renderLegal_iff _).1 hlegal)

/-- `EOS` has no word of its own (R62, R66). -/
theorem decode_ne_eos (w : Word) : decode w ≠ .ok .eos := by
  unfold decode
  split_ifs <;> simp [decodePlain_ok]

/-- Everything a word written to CMD can do. -/
theorem writeCommand_next {w : Word} {s t : State} (h : writeCommand w s = .next t) :
    (∃ i, decode w = .ok i ∧ CommandOutcome i s t) ∨ (s.err = true ∧ t = s) ∨
      (s.err = false ∧ t = s.raiseFault .illegalCmd) := by
  cases hd : decode w with
  | ok i =>
    rw [writeCommand_ok hd] at h
    exact .inl ⟨i, rfl, exec_outcome h⟩
  | error e =>
    rw [writeCommand_error hd] at h
    injection h with h
    exact .inr (h ▸ illegalCommand_cases s)

/-! ### What a step can do -/

theorem hostRead8_next {offset : Nat} {s t : State} (h : hostRead8 offset s = .next t) : ∃ r, t = s.putReply r := by
  unfold hostRead8 at h
  split at h <;> cases h <;> exact ⟨_, rfl⟩

theorem hostRead32_next {offset : Nat} {s t : State} (h : hostRead32 offset s = .next t) :
    ∃ r, t = s.putReply r := by
  unfold hostRead32 at h
  split at h <;> cases h <;> exact ⟨_, rfl⟩

theorem hostWrite8_next {offset : Nat} {v : Byte} {s t : State} (h : hostWrite8 offset v s = .next t) :
    t = s ∨ ∃ k : Fin 1024, t = s.storeByte k.val v := by
  unfold hostWrite8 at h
  split at h
  case h_1 k _ => cases h; exact .inr ⟨k, rfl⟩
  case h_2 => cases h; exact .inl rfl
  all_goals cases h

/-- CMD stands at one offset only (R45). -/
theorem eq_of_locate_cmd {offset : Nat} (h : locate offset = .cmd) : offset = 0x400 := by
  unfold locate at h
  split_ifs at h with _ _ hcmd
  exact hcmd

theorem hostWrite32_next {offset : Nat} {v : Word} {s t : State} (hne : offset ≠ 0x400)
    (h : hostWrite32 offset v s = .next t) : t = s := by
  unfold hostWrite32 at h
  split at h
  case h_1 hloc => exact absurd (eq_of_locate_cmd hloc) hne
  all_goals cases h <;> rfl

/-- An access that does not drive the engine replies, writes one byte of BUF, or is dropped (R48). -/
theorem hostAccess_next_of_not_drivesEngine {a : HostAccess} {s t : State} (ha : a.drivesEngine = false)
    (h : hostAccess a s = .next t) :
    t = s ∨ (∃ r, t = s.putReply r) ∨ ∃ (k : Fin 1024) (v : Byte), t = s.storeByte k.val v := by
  cases a with
  | read8 offset => exact .inr (.inl (hostRead8_next h))
  | write8 offset v => exact (hostWrite8_next h).imp_right fun ⟨k, hk⟩ => .inr ⟨k, v, hk⟩
  | read32 offset => exact .inr (.inl (hostRead32_next h))
  | write32 offset v => exact .inl (hostWrite32_next (by simpa [HostAccess.drivesEngine] using ha) h)
  | otherWidth offset bits => cases h
  | hardwareReset => cases ha

/-- Only a write to CMD and hardware reset drive the engine (R10). -/
theorem HostAccess.drivesEngine_cases (a : HostAccess) :
    a.drivesEngine = false ∨ a = .hardwareReset ∨ ∃ w, a = .write32 0x400 w := by
  cases a <;> simp [HostAccess.drivesEngine, em']

/-- Everything a step can do, said once: wait, reset, execute a word, or serve an access that leaves the engine alone. -/
theorem step_next {s s' : State} (h : step s = .next s') :
    (s.bus = [] ∧ s' = s) ∨
    (∃ rest, s.bus = .hardwareReset :: rest ∧ s' = (s.takeAccess rest).hardwareReset) ∨
    (∃ w rest, s.bus = .write32 0x400 w :: rest ∧ writeCommand w (s.takeAccess rest) = .next s') ∨
    (∃ a rest, s.bus = a :: rest ∧ a.drivesEngine = false ∧ hostAccess a (s.takeAccess rest) = .next s') := by
  cases hbus : s.bus with
  | nil =>
    rw [step_nil hbus] at h
    cases h
    exact .inl ⟨rfl, rfl⟩
  | cons a rest =>
    rw [step_cons hbus] at h
    obtain ha | rfl | ⟨w, rfl⟩ := a.drivesEngine_cases
    · exact .inr (.inr (.inr ⟨a, rest, rfl, ha, h⟩))
    · cases h
      exact .inr (.inl ⟨rest, rfl, rfl⟩)
    · exact .inr (.inr (.inl ⟨w, rest, rfl, h⟩))

/-! ### The invariant -/

/-- Settles O10: BUF is empty, no fault is recorded, and phase IDLE asks nothing of the other registers. -/
theorem resetSatisfiesInv : Obligations.ResetSatisfiesInv := by
  unfold Obligations.ResetSatisfiesInv
  decide

/-- Neither the mixer nor the CRC writes `acc[9..11]` (R13 to R15). -/
theorem State.processChunk_acc_rest (L : BitVec 11) (s : State) (i : Nat) (hi : i < 12) (h9 : 9 ≤ i) :
    (s.processChunk L).acc[i] = s.acc[i] := by
  rw [State.processChunk_acc_other L s i hi (by omega), State.mixStep_acc_other L s i hi (by omega)]

namespace State.Inv

variable {s : State}

/-- The invariant does not speak of the model's own fields. -/
theorem takeAccess (h : s.Inv) (rest : List HostAccess) : (s.takeAccess rest).Inv := h

theorem putReply (h : s.Inv) (r : Reply) : (s.putReply r).Inv := h

theorem hardwareReset (s : State) : s.hardwareReset.Inv := resetSatisfiesInv

theorem storeByte (h : s.Inv) {k : Nat} (hk : k < 1024) (v : Byte) : (s.storeByte k v).Inv := by
  obtain ⟨hbuf, hrest⟩ := h
  exact ⟨Memory.wf_store v hbuf hk, hrest⟩

theorem raiseFault (h : s.Inv) (f : CmdFault) : (s.raiseFault f).Inv := by
  obtain ⟨hbuf, -, -, hrest⟩ := h
  refine ⟨hbuf, nofun, fun _ => ?_, hrest⟩
  cases f <;> simp [CmdFault.code]

/-- `INIT` clears `llast`, `acc[9..11]` and TXT (R81). -/
theorem initialise (h : s.Inv) (c : Constants) : (s.initialise c).Inv := by
  obtain ⟨hbuf, hok, hcode, -, -, -⟩ := h
  have hrest (i : Nat) (hi : i < 12) (h8 : 8 ≤ i) : (s.initialise c).acc[i] = 0 := initialAcc_rest c i hi h8
  exact ⟨hbuf, hok, hcode, fun _ => Nat.zero_le _,
    fun _ => ⟨hrest 9 _ (by omega), hrest 10 _ (by omega), hrest 11 _ (by omega), rfl⟩, nofun⟩

/-- A length that passed check 3 is at most 1024, and 0 is not noted (R21). -/
theorem noteLength (h : s.Inv) {L : BitVec 11} (hL : L.toNat ≤ 1024) : (s.noteLength L).Inv := by
  obtain ⟨hbuf, hok, hcode, hlen, hrest⟩ := h
  refine ⟨hbuf, hok, hcode, fun hp => ?_, hrest⟩
  rw [State.noteLength_llast]
  split
  · exact hlen hp
  · exact hL

theorem setPhase_stopped (h : s.Inv) (hp : s.phase = .absorb) : (s.setPhase .stopped).Inv := by
  obtain ⟨hbuf, hok, hcode, hlen, hopen, -⟩ := h
  exact ⟨hbuf, hok, hcode, fun _ => hlen (by simp [hp]), fun _ => hopen (.inl hp), nofun⟩

/-- A processed chunk writes `buf[0]` and leaves `acc[9..11]` and TXT (R82). -/
theorem processChunk (h : s.Inv) (hp : s.phase = .absorb) (L : BitVec 11) : (s.processChunk L).Inv := by
  obtain ⟨hbuf, hok, hcode, hlen, hopen, -⟩ := h
  obtain ⟨h9, h10, h11, htxt⟩ := hopen (.inl hp)
  have hacc := s.processChunk_acc_rest L
  refine ⟨Memory.wf_store _ hbuf (by omega), hok, hcode, hlen, fun _ => ?_, fun hf => ?_⟩
  · exact ⟨(hacc 9 _ (by omega)).trans h9, (hacc 10 _ (by omega)).trans h10, (hacc 11 _ (by omega)).trans h11, htxt⟩
  · rw [State.processChunk_phase, hp] at hf
    cases hf

/-- `FINAL` assembles `acc[9..11]` and leaves TXT all zero (R150). -/
theorem finalEffect (h : s.Inv) (hp : s.phase = .absorb ∨ s.phase = .stopped) (c : Constants) :
    (s.finalEffect c).Inv := by
  obtain ⟨hbuf, hok, hcode, hlen, hopen, -⟩ := h
  obtain ⟨-, -, -, htxt⟩ := hopen hp
  have hphase : s.phase ≠ .idle := by
    intro hidle
    simp [hidle] at hp
  have h9 : (s.finalEffect c).acc[9] = s.pos := by simp [getElem_congr_coll (State.finalEffect_acc c s)]
  have h10 : (s.finalEffect c).acc[10] = s.sum := by simp [getElem_congr_coll (State.finalEffect_acc c s)]
  have h11 : (s.finalEffect c).acc[11] = (s.finalEffect c).sig[0] := by
    simp [getElem_congr_coll (State.finalEffect_acc c s)]
  exact ⟨hbuf, hok, hcode, fun _ => hlen hphase, by simp, fun _ => ⟨h9, h10, h11, .inl htxt⟩⟩

theorem renderText (h : s.Inv) (hp : s.phase = .final) : s.renderText.Inv := by
  obtain ⟨hbuf, hok, hcode, hlen, -, hfinal⟩ := h
  obtain ⟨h9, h10, h11, -⟩ := hfinal hp
  rw [State.renderText_eq]
  exact ⟨hbuf, hok, hcode, hlen, by simp [hp], fun _ => ⟨h9, h10, h11, .inr rfl⟩⟩

/-- Every command keeps the invariant. -/
theorem of_commandOutcome {i : Instr} {t : State} (h : s.Inv) (ho : CommandOutcome i s t) : t.Inv := by
  cases ho with
  | ignored => exact h
  | faults f => exact h.raiseFault f
  | starts => exact h.initialise Config.constants
  | stops L _ _ hp hL => exact (h.noteLength hL).setPhase_stopped hp
  | processes L _ hp hL => exact (h.noteLength hL).processChunk hp L
  | finishes _ hp => exact h.finalEffect hp Config.constants
  | renders _ hp => exact h.renderText hp

theorem of_writeCommand {w : Word} {t : State} (h : s.Inv) (hw : writeCommand w s = .next t) : t.Inv := by
  obtain ⟨i, -, ho⟩ | ⟨-, rfl⟩ | ⟨-, rfl⟩ := writeCommand_next hw
  · exact h.of_commandOutcome ho
  · exact h
  · exact h.raiseFault .illegalCmd

end State.Inv

/-- Settles O11, by what a step can do. -/
theorem everyStepKeepsInv : Obligations.EveryStepKeepsInv := by
  intro s s' h hstep
  obtain ⟨-, rfl⟩ | ⟨rest, -, rfl⟩ | ⟨w, rest, -, hw⟩ | ⟨a, rest, -, ha, hacc⟩ := step_next hstep
  · exact h
  · exact State.Inv.hardwareReset _
  · exact (h.takeAccess rest).of_writeCommand hw
  · obtain rfl | ⟨r, rfl⟩ | ⟨k, v, rfl⟩ := hostAccess_next_of_not_drivesEngine ha hacc
    · exact h.takeAccess rest
    · exact (h.takeAccess rest).putReply r
    · exact (h.takeAccess rest).storeByte k.isLt v

/-! ### Phase IDLE -/

/-- A halted engine ignores every command (R164). -/
theorem exec_of_err {i : Instr} {s : State} (herr : s.err = true) : exec i s = .next s := by
  rw [exec_eq]
  cases i <;> exact congrArg _ (gate_halted herr)

/-- The fault a command reports in phase IDLE, unless it is `INIT` (R80). -/
def idleFault : Instr → CmdFault
  | .absorb L => if lengthOk L then .badPhase else .badLength
  | .init | .eos | .final | .render => .badPhase

theorem exec_of_idle {i : Instr} {s : State} (hi : i ≠ .init) (herr : s.err = false) (hp : s.phase = .idle) :
    exec i s = .next (s.raiseFault (idleFault i)) := by
  rw [exec_eq]
  congr 1
  cases i with
  | init => exact absurd rfl hi
  | absorb L =>
    show absorbCommand L s = s.raiseFault (if lengthOk L then .badPhase else .badLength)
    unfold absorbCommand
    cases lengthOk L with
    | false => exact gate_badLength herr
    | true => exact gate_badPhase herr (by rw [hp]; rfl)
  | eos => exact gate_badPhase herr (by rw [hp]; rfl)
  | final => exact gate_badPhase herr (by rw [hp]; rfl)
  | render => exact gate_badPhase herr (by rw [hp]; rfl)

theorem State.sameControl.raiseFault {s t : State} (h : s.sameControl t) (f : CmdFault) :
    (s.raiseFault f).sameControl (t.raiseFault f) := by
  obtain ⟨hphase, -, -, hrest⟩ := h
  exact ⟨hphase, rfl, rfl, hrest⟩

/-- `INIT` gives a value to every register that the control part leaves open (R28, R81). -/
theorem State.sameControl.initialise_eq {s t : State} (h : s.sameControl t) (c : Constants) :
    s.initialise c = t.initialise c := by
  obtain ⟨-, herr, hecode, hbuf, hbus, hreply, htick⟩ := h
  simp only [State.initialise, herr, hecode, hbuf, hbus, hreply, htick]

/-- Settles O12: in phase IDLE a command is ignored, is `INIT`, or faults for a reason that does not look at the registers. -/
theorem idleConsumesNoUnspecifiedRegister : Obligations.IdleConsumesNoUnspecifiedRegister := by
  intro i s t s' t' hst hp hs ht
  have ⟨hphase, herr, _⟩ := hst
  have hpt : t.phase = .idle := hphase ▸ hp
  cases he : s.err with
  | true =>
    rw [exec_of_err he] at hs
    rw [exec_of_err (herr ▸ he)] at ht
    cases hs; cases ht
    exact ⟨hst, fun hne => absurd hp hne⟩
  | false =>
    have het : t.err = false := herr ▸ he
    by_cases hi : i = .init
    · subst hi
      rw [exec_init_of_err_false he] at hs
      rw [exec_init_of_err_false het, ← hst.initialise_eq] at ht
      cases hs; cases ht
      exact ⟨⟨rfl, rfl, rfl, rfl, rfl, rfl, rfl⟩, fun _ => rfl⟩
    · rw [exec_of_idle hi he hp] at hs
      rw [exec_of_idle hi het hpt] at ht
      cases hs; cases ht
      exact ⟨hst.raiseFault _, fun hne => absurd hp hne⟩

/-! ### The phase -/

/-- How a command can change the phase (R80). -/
theorem CommandOutcome.phase_cases {i : Instr} {s t : State} (h : CommandOutcome i s t) :
    t.phase = s.phase ∨ s.err = false ∧
      ((i = .init ∧ t.phase = .absorb) ∨
       ((i = .eos ∨ ∃ L, i = .absorb L) ∧ s.phase = .absorb ∧ t.phase = .stopped) ∨
       (i = .final ∧ (s.phase = .absorb ∨ s.phase = .stopped) ∧ t.phase = .final)) := by
  cases h with
  | ignored => exact .inl rfl
  | faults f => exact .inl rfl
  | starts herr => exact .inr ⟨herr, .inl ⟨rfl, rfl⟩⟩
  | stops L hi herr hp => exact .inr ⟨herr, .inr (.inl ⟨hi.symm.imp And.left fun h => ⟨L, h⟩, hp, rfl⟩)⟩
  | processes L => exact .inl (State.processChunk_phase L _)
  | finishes herr hp => exact .inr ⟨herr, .inr (.inr ⟨rfl, hp, rfl⟩)⟩
  | renders => exact .inl (State.renderText_phase s)

/-- Settles O20: an access other than a command or hardware reset leaves the phase, and `EOS` is the word of `ABSORB 0`. -/
theorem phaseChangesOnlyAsTheTableSays : Obligations.PhaseChangesOnlyAsTheTableSays := by
  intro s s' hstep
  obtain ⟨-, rfl⟩ | ⟨rest, hbus, rfl⟩ | ⟨w, rest, hbus, hw⟩ | ⟨a, rest, -, ha, hacc⟩ := step_next hstep
  · exact .inl rfl
  · exact .inr (.inl ⟨rest, hbus, rfl⟩)
  · obtain ⟨i, hd, ho⟩ | ⟨-, rfl⟩ | ⟨-, rfl⟩ := writeCommand_next hw
    · refine ho.phase_cases.imp_right fun ⟨herr, hchange⟩ => .inr ⟨w, rest, hbus, herr, ?_⟩
      obtain ⟨rfl, hp⟩ | ⟨rfl | ⟨L, rfl⟩, hp⟩ | ⟨rfl, hp⟩ := hchange
      · exact .inl ⟨hd, hp⟩
      · exact absurd hd (decode_ne_eos w)
      · exact .inr (.inl ⟨L, hd, hp⟩)
      · exact .inr (.inr ⟨hd, hp⟩)
    · exact .inl rfl
    · exact .inl rfl
  · obtain rfl | ⟨r, rfl⟩ | ⟨k, v, rfl⟩ := hostAccess_next_of_not_drivesEngine ha hacc <;> exact .inl rfl

/-! ### After the stop -/

/-- A chunk after the stop is discarded (R85). -/
theorem exec_absorb_of_stopped {L : BitVec 11} {s : State} (herr : s.err = false) (hp : s.phase = .stopped)
    (hL : L.toNat ≤ 1024) : exec (.absorb L) s = .next s := by
  have hok : lengthOk L = true := (lengthOk_iff L).2 hL
  have hlegal : absorbLegal s.phase = true := (absorbLegal_iff _).2 (.inr hp)
  rw [exec_eq]
  simp only [absorbCommand, hok, gate_effect herr hlegal, State.absorbEffect, if_pos hp]

/-- Settles O28, by induction on the chunks. -/
theorem noAbsorbChangesAnythingAfterTheStop : Obligations.NoAbsorbChangesAnythingAfterTheStop := by
  intro Ls s herr hp hLs
  induction Ls with
  | nil => rfl
  | cons L Ls ih =>
    rw [List.forall_mem_cons] at hLs
    obtain ⟨hL, hLs⟩ := hLs
    rw [List.map_cons, execAll, exec_absorb_of_stopped herr hp hL]
    exact ih hLs

/-! ### What the commands leave unchanged -/

/-- Settles O31: the one command that writes BUF is an `ABSORB` that processes its chunk, by `sig_increment`. -/
theorem commandsWriteAtMostTheFirstByteOfBuf : Obligations.CommandsWriteAtMostTheFirstByteOfBuf := by
  intro i s t h
  cases exec_outcome h with
  | ignored => exact ⟨fun _ _ => rfl, .inl rfl⟩
  | faults f => exact ⟨fun _ _ => rfl, .inl rfl⟩
  | starts => exact ⟨fun _ _ => rfl, .inl rfl⟩
  | stops L => exact ⟨fun _ _ => rfl, .inl rfl⟩
  | processes L =>
    exact ⟨fun k hk => State.bufByte_storeByte_other _ 0 k _ hk,
      .inr ⟨State.bufByte_storeByte_same _ 0 _, L, rfl⟩⟩
  | finishes => exact ⟨fun _ _ => rfl, .inl rfl⟩
  | renders => exact ⟨fun k _ => s.bufByte_renderText k, .inl (s.bufByte_renderText 0)⟩

/-- Settles O32, by what a command can do. -/
theorem eachRegisterIsWrittenOnlyByItsCommands : Obligations.EachRegisterIsWrittenOnlyByItsCommands := by
  intro i s t h
  cases exec_outcome h with
  | ignored => simp
  | faults f => simp
  | starts => simp
  | stops L hi =>
    obtain rfl | ⟨rfl, rfl⟩ := hi <;> simp
  | processes L =>
    refine ⟨by simp, fun _ k hk => ?_, by simp, fun _ => rfl, by simp, rfl, rfl, rfl⟩
    exact State.processChunk_acc_rest L (s.noteLength L) k.val k.isLt hk
  | finishes =>
    refine ⟨fun _ => ⟨fun k hk => State.finalEffect_acc_other _ s k.val hk, rfl, rfl, rfl⟩, ?_⟩
    simp
  | renders => simp

/-! ### The host's accesses -/

/-- Settles O57: such an access replies, writes one byte of BUF, or is dropped. -/
theorem onlyCommandsAndResetChangeRegisters : Obligations.OnlyCommandsAndResetChangeRegisters := by
  intro a s s' rest hbus ha hstep
  rw [step_cons hbus] at hstep
  obtain rfl | ⟨r, rfl⟩ | ⟨k, v, rfl⟩ := hostAccess_next_of_not_drivesEngine ha hstep
  · rfl
  · rfl
  · rfl

/-- Settles O6: the state that executes is the one with the access taken. -/
theorem stepRunsTheDecodedCommand : Obligations.StepRunsTheDecodedCommand := by
  intro w i s rest hbus hd
  rw [step_command hbus, writeCommand_ok hd]
  rfl

/-- Settles O9: hardware reset puts `phase`, `err` and `ecode`, of which STATUS is made, at their reset values. -/
theorem hardwareResetClearsStatus : Obligations.HardwareResetClearsStatus := by
  have hstatus : State.reset.statusWord = 0 := by decide
  refine ⟨⟨rfl, rfl, rfl, hstatus⟩, fun s rest hbus => ?_⟩
  exact ⟨(s.takeAccess rest).hardwareReset, step_cons hbus, rfl, rfl, rfl, hstatus, rfl⟩

/-- The fields of STATUS from bit 0 up (R23). -/
theorem State.getLsbD_statusWord (s : State) (i : Nat) :
    s.statusWord.getLsbD i =
      if i < 2 then s.phase.code.getLsbD i
      else if i - 2 < 1 then (BitVec.ofBool s.err).getLsbD (i - 2)
      else if i - 2 - 1 < 1 then (0#1).getLsbD (i - 2 - 1)
      else if i - 2 - 1 - 1 < 4 then s.ecode.getLsbD (i - 2 - 1 - 1)
      else (0#24).getLsbD (i - 2 - 1 - 1 - 4) := by
  show (0#24 ++ s.ecode ++ 0#1 ++ BitVec.ofBool s.err ++ s.phase.code : BitVec (24 + 4 + 1 + 1 + 2)).getLsbD i = _
  simp only [BitVec.getLsbD_append]

theorem State.getLsbD_statusWord_of_lt_two (s : State) {i : Nat} (hi : i < 2) :
    s.statusWord.getLsbD i = s.phase.code.getLsbD i := by
  rw [State.getLsbD_statusWord, if_pos hi]

theorem State.getLsbD_statusWord_two (s : State) : s.statusWord.getLsbD 2 = s.err := by
  rw [State.getLsbD_statusWord]
  simp

theorem State.getLsbD_statusWord_three (s : State) : s.statusWord.getLsbD 3 = false := by
  rw [State.getLsbD_statusWord]
  simp

theorem State.getLsbD_statusWord_add_four (s : State) (i : Nat) :
    s.statusWord.getLsbD (i + 4) = s.ecode.getLsbD i := by
  rw [State.getLsbD_statusWord]
  simpa using BitVec.lt_of_getLsbD

/-- Settles O19, bit by bit: above bit 3 stand `ecode` and, beyond its four bits, zeros. -/
theorem statusFields : Obligations.StatusFields := by
  intro s
  have hphase : s.statusWord.extractLsb' 0 2 = s.phase.code := by
    ext i hi
    rw [BitVec.getElem_extractLsb', Nat.zero_add, s.getLsbD_statusWord_of_lt_two hi, BitVec.getLsbD_eq_getElem]
  have hecode : s.statusWord.extractLsb' 4 4 = s.ecode := by
    ext i hi
    rw [BitVec.getElem_extractLsb', Nat.add_comm, s.getLsbD_statusWord_add_four, BitVec.getLsbD_eq_getElem]
  have hhigh : s.statusWord.extractLsb' 8 24 = 0 := by
    ext i hi
    rw [BitVec.getElem_extractLsb', show 8 + i = (4 + i) + 4 by omega, s.getLsbD_statusWord_add_four,
      BitVec.getLsbD_of_ge _ _ (by omega)]
    simp
  refine ⟨?_, s.getLsbD_statusWord_two, s.getLsbD_statusWord_three, hecode, hhigh⟩
  rw [hphase]
  cases s.phase <;> rfl

theorem locate_acc : ∀ i : Fin 12, locate (0x440 + 4 * i.val) = .acc i := by decide

theorem locate_sig : ∀ i : Fin 4, locate (0x470 + 4 * i.val) = .sig i := by decide

/-- The registers that take 32-bit accesses, by offset (R45). -/
theorem wordOffset_cases {offset : Nat} (h : wordOffset offset) :
    offset = 0x400 ∨ offset = 0x404 ∨ offset = 0x408 ∨ offset = 0x40C ∨ offset = 0x410 ∨
    (∃ i : Fin 12, offset = 0x440 + 4 * i.val) ∨ ∃ i : Fin 4, offset = 0x470 + 4 * i.val := by
  obtain ⟨hlo, hhi, hmod⟩ | ⟨hlo, hhi, hmod⟩ := h
  · omega
  · by_cases hacc : offset < 0x470
    all_goals iterate 5 right
    · exact .inl ⟨⟨(offset - 0x440) / 4, by omega⟩, by dsimp only; omega⟩
    · exact .inr ⟨⟨(offset - 0x470) / 4, by omega⟩, by dsimp only; omega⟩

/-- In phase IDLE a 32-bit register other than CMD, STATUS and LLAST reads as a free value (R28, log 3). -/
theorem hostRead32_of_idle {s : State} {offset : Nat} (hp : s.phase = .idle) (ho : wordOffset offset)
    (hcmd : offset ≠ 0x400) (hstatus : offset ≠ 0x404) (hllast : offset ≠ 0x410) :
    hostRead32 offset s = .next (s.putReply (.word (Config.freeWord s.tick offset))) := by
  obtain h | h | rfl | rfl | h | ⟨i, rfl⟩ | ⟨i, rfl⟩ := wordOffset_cases ho
  · exact absurd h hcmd
  · exact absurd h hstatus
  · rw [← s.specifiedWord_idle hp _ s.pos]; rfl
  · rw [← s.specifiedWord_idle hp _ s.sum]; rfl
  · exact absurd h hllast
  · simp only [hostRead32, locate_acc, State.specifiedWord_idle hp]
  · simp only [hostRead32, locate_sig, State.specifiedWord_idle hp]

/-- Settles O58: LLAST shows the 11 free bits of `llast` only, the others a whole free word. -/
theorem idleReadGivesAFreeValue : Obligations.IdleReadGivesAFreeValue := by
  intro s rest offset hp hbus ho hcmd hstatus
  have hp' : (s.takeAccess rest).phase = .idle := hp
  by_cases hllast : offset = 0x410
  · subst hllast
    refine ⟨((s.takeAccess rest).specifiedLength 0x410 s.llast).setWidth 32, step_cons hbus, fun hne => absurd rfl hne,
      fun _ => ⟨?_, extract_high_of_length _⟩⟩
    rw [State.specifiedLength_idle hp']
    ext i hi
    simp [hi]
    omega
  · exact ⟨_, (step_cons hbus).trans (hostRead32_of_idle hp' ho hcmd hstatus hllast), fun _ => rfl,
      fun heq => absurd heq hllast⟩

end Sys2Proof.Machine
end

section
/-! PROOFS. The statements of spec/20_memory.md. -/

namespace Sys2Proof.Machine

/-! ### The address map -/

/-- The offsets of BUF (R45). -/
theorem locate_buf (k : Fin 1024) : locate k.val = .buf k := dif_pos k.isLt

/-- The offsets of TXT (R45). -/
theorem locate_txt : ∀ k : Fin 72, locate (0x480 + k.val) = .txt k := by decide

/-- A location that takes 8-bit accesses (R45, R47). -/
def Location.isByte : Location → Bool
  | .buf _ | .txt _ => true
  | .cmd | .status | .pos | .sum | .llast | .acc _ | .sig _ | .insideRegister | .reserved | .outside => false

/-- A location that takes 32-bit accesses (R45, R47). -/
def Location.isWord : Location → Bool
  | .cmd | .status | .pos | .sum | .llast | .acc _ | .sig _ => true
  | .buf _ | .txt _ | .insideRegister | .reserved | .outside => false

/-- The ranges of the address map against the 8-bit offsets (R45, R47). -/
theorem isByte_locate_iff (offset : Nat) : (locate offset).isByte = true ↔ byteOffset offset := by
  unfold locate
  split_ifs <;> simp [Location.isByte] <;> omega

/-- The ranges of the address map against the 32-bit offsets (R45, R47). -/
theorem isWord_locate_iff (offset : Nat) : (locate offset).isWord = true ↔ wordOffset offset := by
  unfold locate
  split_ifs <;> simp [Location.isWord] <;> omega

/-! ### The accesses that complete -/

theorem hostRead8_completes_iff (offset : Nat) (s : State) :
    (∃ t, hostRead8 offset s = .next t) ↔ byteOffset offset := by
  rw [← isByte_locate_iff]
  unfold hostRead8
  cases locate offset <;> simp [Location.isByte]

theorem hostWrite8_completes_iff (offset : Nat) (v : Byte) (s : State) :
    (∃ t, hostWrite8 offset v s = .next t) ↔ byteOffset offset := by
  rw [← isByte_locate_iff]
  unfold hostWrite8
  cases locate offset <;> simp [Location.isByte]

theorem hostRead32_completes_iff (offset : Nat) (s : State) :
    (∃ t, hostRead32 offset s = .next t) ↔ wordOffset offset := by
  rw [← isWord_locate_iff]
  unfold hostRead32
  cases locate offset <;> simp [Location.isWord]

/-- Every word written to CMD completes: a command (R160), or the illegal word's fault (R64). -/
theorem writeCommand_completes (w : Word) (s : State) : ∃ t, writeCommand w s = .next t := by
  cases hd : decode w with
  | ok i => exact ⟨_, (writeCommand_ok hd s).trans (exec_eq i s)⟩
  | error e => exact ⟨_, writeCommand_error hd s⟩

theorem hostWrite32_completes_iff (offset : Nat) (v : Word) (s : State) :
    (∃ t, hostWrite32 offset v s = .next t) ↔ wordOffset offset := by
  rw [← isWord_locate_iff]
  unfold hostWrite32
  cases locate offset <;> simp [Location.isWord, writeCommand_completes]

/-- Settles O8: each kind of access completes at the offsets of its width, and no other width does. -/
theorem stepCompletesExactlyOnLegalAccesses : Obligations.StepCompletesExactlyOnLegalAccesses := by
  intro a s rest hbus
  rw [step_cons hbus]
  cases a with
  | read8 offset => exact hostRead8_completes_iff offset _
  | write8 offset v => exact hostWrite8_completes_iff offset v _
  | read32 offset => exact hostRead32_completes_iff offset _
  | write32 offset v => exact hostWrite32_completes_iff offset v _
  | otherWidth offset bits => exact iff_of_false nofun id
  | hardwareReset => exact iff_of_true ⟨_, rfl⟩ trivial

/-! ### What an ABSORB reads of BUF -/

/-- The two states agree on everything but BUF, and on `buf[0:n]`. -/
structure State.AgreeBelow (n : Nat) (s t : State) : Prop where
  same : s.sameButBuf t
  bytes : ∀ k, k < n → s.bufByte k = t.bufByte k

namespace State.AgreeBelow

variable {n : Nat} {s t : State}

theorem err_eq (h : s.AgreeBelow n t) : s.err = t.err := (congrArg State.err h.same :)

theorem phase_eq (h : s.AgreeBelow n t) : s.phase = t.phase := (congrArg State.phase h.same :)

theorem sig_eq (h : s.AgreeBelow n t) : s.sig = t.sig := (congrArg State.sig h.same :)

theorem exists_buf (h : s.AgreeBelow n t) : ∃ b, t = { s with buf := b } := ⟨t.buf, h.same.symm⟩

theorem raiseFault (h : s.AgreeBelow n t) (f : CmdFault) : (s.raiseFault f).AgreeBelow n (t.raiseFault f) := by
  obtain ⟨b, rfl⟩ := h.exists_buf
  exact ⟨rfl, h.bytes⟩

theorem setPhase (h : s.AgreeBelow n t) (p : Phase) : (s.setPhase p).AgreeBelow n (t.setPhase p) := by
  obtain ⟨b, rfl⟩ := h.exists_buf
  exact ⟨rfl, h.bytes⟩

theorem noteLength (h : s.AgreeBelow n t) (L : BitVec 11) : (s.noteLength L).AgreeBelow n (t.noteLength L) := by
  obtain ⟨b, rfl⟩ := h.exists_buf
  exact ⟨rfl, h.bytes⟩

/-- The checks of R80 read `err` and `phase`, on which the states agree. -/
theorem gate (h : s.AgreeBelow n t) {ok : Bool} {legal : Phase → Bool} {f : State → State}
    (heffect : (f s).AgreeBelow n (f t)) : (gate ok legal f s).AgreeBelow n (gate ok legal f t) := by
  unfold Machine.gate
  rw [← h.err_eq, ← h.phase_eq]
  split_ifs
  · exact h
  · exact h.raiseFault .badLength
  · exact h.raiseFault .badPhase
  · exact heffect

/-! The five steps of a processed chunk (R82), of a length `L` with `buf[0:L]` inside `buf[0:n]`. -/

variable {L : BitVec 11}

theorem chunk_eq (h : s.AgreeBelow n t) (hL : L.toNat ≤ n) : s.chunk L.toNat = t.chunk L.toNat :=
  State.chunk_congr _ fun k hk => h.bytes k (by omega)

theorem mixStep (h : s.AgreeBelow n t) (hL : L.toNat ≤ n) : (s.mixStep L).AgreeBelow n (t.mixStep L) := by
  have hchunk := h.chunk_eq hL
  obtain ⟨b, rfl⟩ := h.exists_buf
  exact ⟨by simp only [State.mixStep, hchunk], h.bytes⟩

theorem sigIncrement (h : s.AgreeBelow n t) : s.sigIncrement.AgreeBelow n t.sigIncrement := by
  refine ⟨?_, fun k hk => ?_⟩
  · obtain ⟨b, rfl⟩ := h.exists_buf
    rfl
  · by_cases h0 : k = 0
    · subst h0
      simp only [State.sigIncrement, State.bufByte_storeByte_same, h.bytes 0 hk]
    · simp only [State.sigIncrement, State.bufByte_storeByte_other _ 0 k _ h0, h.bytes k hk]

theorem sigMix (h : s.AgreeBelow n t) (hL : L.toNat ≤ n) : (s.sigMix L).AgreeBelow n (t.sigMix L) := by
  have hsig : (s.sigMix L).sig = (t.sigMix L).sig := by
    ext i hi
    rw [State.sigMix_word, State.sigMix_word, h.sig_eq]
    split_ifs with hlead
    · rw [h.bytes i ((lt_min_iff.1 hlead).1.trans_le hL)]
    · rfl
  obtain ⟨b, rfl⟩ := h.exists_buf
  exact ⟨congrArg (fun x => { s with sig := x, buf := b }) hsig, h.bytes⟩

theorem addByteSum (h : s.AgreeBelow n t) (hL : L.toNat ≤ n) : (s.addByteSum L).AgreeBelow n (t.addByteSum L) := by
  have hchunk := h.chunk_eq hL
  obtain ⟨b, rfl⟩ := h.exists_buf
  exact ⟨by simp only [State.addByteSum, hchunk], h.bytes⟩

theorem xorCrc (h : s.AgreeBelow n t) (hL : L.toNat ≤ n) : (s.xorCrc L).AgreeBelow n (t.xorCrc L) := by
  have hchunk := h.chunk_eq hL
  obtain ⟨b, rfl⟩ := h.exists_buf
  exact ⟨by simp only [State.xorCrc, hchunk], h.bytes⟩

theorem addCount (h : s.AgreeBelow n t) (L : BitVec 11) : (s.addCount L).AgreeBelow n (t.addCount L) := by
  obtain ⟨b, rfl⟩ := h.exists_buf
  exact ⟨rfl, h.bytes⟩

theorem processChunk (h : s.AgreeBelow n t) (hL : L.toNat ≤ n) :
    (s.processChunk L).AgreeBelow n (t.processChunk L) :=
  ((((h.mixStep hL).sigIncrement.sigMix hL).addByteSum hL).xorCrc hL).addCount L

theorem absorbChunk (h : s.AgreeBelow n t) (hL : L.toNat ≤ n) : (s.absorbChunk L).AgreeBelow n (t.absorbChunk L) := by
  have hnote := h.noteLength L
  simp only [State.absorbChunk, hnote.chunk_eq hL]
  split
  · exact hnote.setPhase .stopped
  · exact hnote.processChunk hL

theorem absorbCommand (h : s.AgreeBelow n t) (hL : L.toNat ≤ n) :
    (absorbCommand L s).AgreeBelow n (absorbCommand L t) := by
  refine h.gate ?_
  unfold State.absorbEffect
  rw [← h.phase_eq]
  split
  · exact h
  · exact h.absorbChunk hL

end State.AgreeBelow

/-- Settles O30, with `buf[0:L]` for the part of BUF on which the states agree. -/
theorem absorbReadsOnlyItsChunk : Obligations.AbsorbReadsOnlyItsChunk := by
  intro L s t hsame hbytes
  obtain ⟨hsame', hbytes'⟩ := State.AgreeBelow.absorbCommand (L := L) ⟨hsame, hbytes⟩ le_rfl
  exact ⟨_, _, exec_eq _ s, exec_eq _ t, hsame', hbytes'⟩

/-! ### Host reads -/

theorem hostRead8_buf (k : Fin 1024) (s : State) :
    hostRead8 k.val s = .next (s.putReply (.byte (s.bufByte k.val))) := by
  simp only [hostRead8, locate_buf]

theorem hostRead8_txt (k : Fin 72) (s : State) :
    hostRead8 (0x480 + k.val) s = .next (s.putReply (.byte (s.specifiedByte (0x480 + k.val) s.txt[k]))) := by
  simp only [hostRead8, locate_txt]

/-- Settles O54: the free values are drawn after the access is counted. -/
theorem hostReadsBufAndTxt : Obligations.HostReadsBufAndTxt := by
  intro s rest
  exact ⟨fun k hbus => (step_cons hbus).trans (hostRead8_buf k _),
    fun k hbus => (step_cons hbus).trans (hostRead8_txt k _)⟩

theorem hostRead32_acc (i : Fin 12) (s : State) :
    hostRead32 (0x440 + 4 * i.val) s =
      .next (s.putReply (.word (s.specifiedWord (0x440 + 4 * i.val) s.acc[i]))) := by
  simp only [hostRead32, locate_acc]

theorem hostRead32_sig (i : Fin 4) (s : State) :
    hostRead32 (0x470 + 4 * i.val) s =
      .next (s.putReply (.word (s.specifiedWord (0x470 + 4 * i.val) s.sig[i]))) := by
  simp only [hostRead32, locate_sig]

/-- A 32-bit read at a register offset completes, and its reply is a word. -/
theorem hostRead32_replies_word {offset : Nat} (ho : wordOffset offset) (s : State) :
    ∃ v, hostRead32 offset s = .next (s.putReply (.word v)) := by
  obtain rfl | rfl | rfl | rfl | rfl | ⟨i, rfl⟩ | ⟨i, rfl⟩ := wordOffset_cases ho
  iterate 5 exact ⟨_, rfl⟩
  · exact ⟨_, hostRead32_acc i s⟩
  · exact ⟨_, hostRead32_sig i s⟩

/-- A read has one reply. -/
theorem hostRead32_word_unique {offset : Nat} {s : State} {v w : Word}
    (hv : hostRead32 offset s = .next (s.putReply (.word v)))
    (hw : hostRead32 offset s = .next (s.putReply (.word w))) : v = w := by
  rw [hv] at hw
  simpa [State.putReply] using hw

/-- Settles O53: the word a read replies with is the one that its register's offset names. -/
theorem hostReadsTheRegisters : Obligations.HostReadsTheRegisters := by
  intro s rest offset hbus ho
  obtain ⟨v, hread⟩ := hostRead32_replies_word ho (s.takeAccess rest)
  have hv {w : Word} (hw : hostRead32 offset (s.takeAccess rest) = .next ((s.takeAccess rest).putReply (.word w))) :
      v = w := hostRead32_word_unique hread hw
  refine ⟨v, (step_cons hbus).trans hread, ?cmd, ?status, ?high, fun hp => ?specified⟩
  case cmd => rintro rfl; exact hv rfl
  case status => rintro rfl; exact hv rfl
  case high => rintro rfl; rw [hv rfl]; exact extract_high_of_length _
  case specified =>
    have hw (w : Word) : (s.takeAccess rest).specifiedWord offset w = w :=
      State.specifiedWord_not_idle (s := s.takeAccess rest) hp offset w
    have hlength : (s.takeAccess rest).specifiedLength offset s.llast = s.llast :=
      State.specifiedLength_not_idle (s := s.takeAccess rest) hp offset s.llast
    refine ⟨?_, ?_, ?_, fun i => ?_, fun i => ?_⟩ <;> rintro rfl
    · exact (hv rfl).trans (hw s.pos)
    · exact (hv rfl).trans (hw s.sum)
    · exact (hv rfl).trans (congrArg (BitVec.setWidth 32) hlength)
    · exact (hv (hostRead32_acc i _)).trans (hw s.acc[i])
    · exact (hv (hostRead32_sig i _)).trans (hw s.sig[i])

/-! ### Host writes -/

theorem hostWrite8_buf (k : Fin 1024) (v : Byte) (s : State) :
    hostWrite8 k.val v s = .next (s.storeByte k.val v) := by
  simp only [hostWrite8, locate_buf]

theorem hostWrite8_txt (k : Fin 72) (v : Byte) (s : State) : hostWrite8 (0x480 + k.val) v s = .next s := by
  simp only [hostWrite8, locate_txt]

/-- Settles O55, by the laws of a store into BUF. -/
theorem hostWriteChangesOneByteOfBuf : Obligations.HostWriteChangesOneByteOfBuf := by
  intro s rest k v hbus
  exact ⟨(s.takeAccess rest).storeByte k.val v, (step_cons hbus).trans (hostWrite8_buf k v _),
    State.bufByte_storeByte_same _ _ _, fun a ha => Memory.lookup_store_other _ _ _ _ ha, rfl⟩

/-- A byte offset beyond BUF is one of TXT (R45). -/
theorem exists_txt_offset {offset : Nat} (ho : byteOffset offset) (hbuf : 0x400 ≤ offset) :
    ∃ k : Fin 72, offset = 0x480 + k.val :=
  ⟨⟨offset - 0x480, by omega⟩, by dsimp only; omega⟩

/-- Every register but CMD drops a 32-bit write (R48). -/
theorem hostWrite32_readOnly {offset : Nat} (ho : wordOffset offset) (hcmd : offset ≠ 0x400) (v : Word) (s : State) :
    hostWrite32 offset v s = .next s := by
  obtain ⟨t, ht⟩ := (hostWrite32_completes_iff offset v s).2 ho
  rw [ht, hostWrite32_next hcmd ht]

/-- Settles O56: the state such a write leaves is the one with the access taken. -/
theorem writesToReadOnlyLocationsAreDropped : Obligations.WritesToReadOnlyLocationsAreDropped := by
  rintro s rest offset v b (⟨hbus, ho, hcmd⟩ | ⟨hbus, ho, hbuf⟩)
  · exact (step_cons hbus).trans (hostWrite32_readOnly ho hcmd v _)
  · obtain ⟨k, rfl⟩ := exists_txt_offset ho hbuf
    exact (step_cons hbus).trans (hostWrite8_txt k b _)

end Sys2Proof.Machine
end

section
/-! PROOFS. The statements of spec/30_encoding.md. -/

namespace Sys2Proof

/-! ### The decoder and the encoder -/

/-- The word that has the given fields is their format C (R60). -/
theorem formatC_eq_of_fields {w : Word} {op : BitVec 4} {z : BitVec 17} {L : BitVec 11} (hop : opField w = op)
    (hz : zField w = z) (hL : lengthField w = L) : formatC op z L = w := by
  rw [← hop, ← hz, ← hL, formatC_fields]

/-- The word of an instruction decodes to the core command it stands for; only `EOS` stands for another (R66). -/
theorem decode_encode (i : Instr) : decode (encode i) = .ok i.expand := by
  cases i with
  | absorb L => simp [decode, encode, Instr.expand, opInit, opAbsorb]
  | init => rfl
  | eos => rfl
  | final => rfl
  | render => rfl

theorem expand_of_wf {i : Instr} (h : i.wf = true) : i.expand = i := by
  cases i with
  | eos => cases h
  | init => rfl
  | absorb L => rfl
  | final => rfl
  | render => rfl

/-- Settles O2, from the word of every instruction. -/
theorem decodeOfEncodeIsTheInstruction : Obligations.DecodeOfEncodeIsTheInstruction := by
  intro i hwf
  rw [decode_encode, expand_of_wf hwf]

/-- Settles O3: the branch of the decoder fixes `op`, and what is left of the word is 0 or the length. -/
theorem encodeOfDecodeIsTheWord : Obligations.EncodeOfDecodeIsTheWord := by
  intro w i h
  unfold decode at h
  split_ifs at h with hinit habsorb hz hfinal hrender
  · obtain ⟨hz, hL, rfl⟩ := decodePlain_ok.1 h
    exact ⟨rfl, formatC_eq_of_fields hinit hz hL⟩
  · cases h
    exact ⟨rfl, formatC_eq_of_fields habsorb hz rfl⟩
  · obtain ⟨hz, hL, rfl⟩ := decodePlain_ok.1 h
    exact ⟨rfl, formatC_eq_of_fields hfinal hz hL⟩
  · obtain ⟨hz, hL, rfl⟩ := decodePlain_ok.1 h
    exact ⟨rfl, formatC_eq_of_fields hrender hz hL⟩

/-- What the decoder reads from a word, said once: a core command, of which the word is the encoding. -/
theorem decode_eq_ok_iff {w : Word} {i : Instr} : decode w = .ok i ↔ i.wf = true ∧ encode i = w := by
  refine ⟨encodeOfDecodeIsTheWord w i, ?_⟩
  rintro ⟨hwf, rfl⟩
  exact decodeOfEncodeIsTheInstruction i hwf

/-- Settles O1: the nine words of the vectors, evaluated. -/
theorem tableWordsDecodeToTheirCommands : Obligations.TableWordsDecodeToTheirCommands := by
  unfold Obligations.TableWordsDecodeToTheirCommands
  decide

/-! ### The rows of the opcode table -/

/-- A mask of all ones fixes every bit of the word. -/
theorem and_fullMask (w : Word) : w &&& 0xFFFFFFFF#32 = w := BitVec.and_allOnes

/-- The mask of `ABSORB` keeps `op` (R62). -/
theorem opField_and_absorbMask (w : Word) : opField (w &&& 0xFFFFF800#32) = opField w := by
  have hmask : (0xFFFFF800#32).extractLsb' 28 4 = BitVec.allOnes 4 := by decide
  rw [opField, BitVec.extractLsb'_and, hmask, BitVec.and_allOnes, opField]

/-- The mask of `ABSORB` keeps `z` (R62). -/
theorem zField_and_absorbMask (w : Word) : zField (w &&& 0xFFFFF800#32) = zField w := by
  have hmask : (0xFFFFF800#32).extractLsb' 11 17 = BitVec.allOnes 17 := by decide
  rw [zField, BitVec.extractLsb'_and, hmask, BitVec.and_allOnes, zField]

/-- The word of `ABSORB L` by mask, match and length (R61, R62). -/
theorem encode_absorb_eq_iff (L : BitVec 11) (w : Word) :
    encode (.absorb L) = w ↔ w &&& 0xFFFFF800#32 = 0x20000000#32 ∧ L = lengthField w := by
  constructor
  · rintro rfl
    exact ⟨Laws.TableWord.absorb L, (lengthField_formatC ..).symm⟩
  · rintro ⟨hmatch, rfl⟩
    have hop : opField w = opAbsorb := by rw [← opField_and_absorbMask, hmatch]; decide
    have hz : zField w = 0 := by rw [← zField_and_absorbMask, hmatch]; decide
    exact formatC_eq_of_fields hop hz rfl

/-- A command without an operand is exactly its one word (R62). -/
theorem decode_eq_ok_iff_fullMask {i : Instr} (hwf : i.wf = true) (w : Word) :
    decode w = .ok i ↔ w &&& 0xFFFFFFFF#32 = encode i := by
  rw [decode_eq_ok_iff, and_fullMask, eq_comm (a := w)]
  exact and_iff_right hwf

/-- Settles O4: each row against the word of its command. -/
theorem decodedExactlyByMaskAndMatch : Obligations.DecodedExactlyByMaskAndMatch := by
  intro w
  refine ⟨decode_eq_ok_iff_fullMask rfl w, fun L => ?_, decode_eq_ok_iff_fullMask rfl w,
    decode_eq_ok_iff_fullMask rfl w⟩
  rw [decode_eq_ok_iff]
  exact (and_iff_right rfl).trans (encode_absorb_eq_iff L w)

end Sys2Proof

namespace Sys2Proof.Machine

/-! ### Illegal words -/

/-- A word that is illegal by R64. -/
abbrev illegalWord (w : Word) : Prop :=
  let op := (w >>> 28).toNat
  op = 0 ∨ 5 ≤ op ∨ ((op = 1 ∨ op = 3 ∨ op = 4) ∧ w.extractLsb' 0 28 ≠ 0) ∨ (op = 2 ∧ w.extractLsb' 11 17 ≠ 0)

theorem toNat_shiftRight_op (w : Word) : (w >>> 28).toNat = (opField w).toNat := by
  rw [opField, BitVec.extractLsb'_toNat, BitVec.toNat_ushiftRight, Nat.shiftRight_eq_div_pow]
  omega

/-- No word of an instruction is illegal: its `op` is 1 to 4, and what its row reserves is 0. -/
theorem not_illegalWord_encode (i : Instr) : ¬illegalWord (encode i) := by
  cases i with
  | absorb L =>
    have hop : (encode (.absorb L) >>> 28).toNat = 2 := by
      rw [toNat_shiftRight_op, encode, opField_formatC]; rfl
    have hz : (encode (.absorb L)).extractLsb' 11 17 = 0 := zField_formatC ..
    simp [hop, hz]
  | init => decide
  | eos => decide
  | final => decide
  | render => decide

theorem decode_of_illegalWord {w : Word} (h : illegalWord w) : ∃ e, decode w = .error e := by
  cases hd : decode w with
  | error e => exact ⟨e, rfl⟩
  | ok i =>
    obtain ⟨-, rfl⟩ := decode_eq_ok_iff.1 hd
    exact absurd h (not_illegalWord_encode i)

/-- Settles O5: an illegal word is the encoding of no instruction, so the decoder rejects it. -/
theorem illegalWordsRaiseIllegalCmd : Obligations.IllegalWordsRaiseIllegalCmd := by
  intro w s rest hw herr hbus
  obtain ⟨e, he⟩ := decode_of_illegalWord hw
  rw [step_command hbus, writeCommand_error he, illegalCommand, State.takeAccess_err, herr]
  rfl

/-! ### EOS and the ways of an ABSORB -/

/-- An `ABSORB` that passes the checks of R80 has its effect. -/
theorem exec_absorb_eq_effect {L : BitVec 11} {s : State} (herr : s.err = false)
    (hphase : s.phase = .absorb ∨ s.phase = .stopped) (hL : L.toNat ≤ 1024) :
    exec (.absorb L) s = .next (s.absorbEffect L) := by
  rw [exec_eq]
  simp only [absorbCommand, (lengthOk_iff L).2 hL, gate_effect herr ((absorbLegal_iff _).2 hphase)]

/-- A blank chunk stops the stream (R83). -/
theorem exec_absorb_of_blank {L : BitVec 11} {s : State} (herr : s.err = false) (hphase : s.phase = .absorb)
    (hL : L.toNat ≤ 1024) (hblank : isBlank (s.chunk L.toNat) = true) :
    exec (.absorb L) s = .next ((s.noteLength L).setPhase .stopped) := by
  rw [exec_absorb_eq_effect herr (.inl hphase) hL]
  obtain ⟨hp, -⟩ | ⟨-, -, he⟩ | ⟨-, hnot, -⟩ := absorbEffect_cases L s
  · simp [hphase] at hp
  · rw [he]
  · simp [hblank] at hnot

/-- A chunk that is not blank is processed (R82). -/
theorem exec_absorb_of_not_blank {L : BitVec 11} {s : State} (herr : s.err = false) (hphase : s.phase = .absorb)
    (hL : L.toNat ≤ 1024) (hblank : isBlank (s.chunk L.toNat) = false) :
    exec (.absorb L) s = .next ((s.noteLength L).processChunk L) := by
  rw [exec_absorb_eq_effect herr (.inl hphase) hL]
  obtain ⟨hp, -⟩ | ⟨-, hnot, -⟩ | ⟨-, -, he⟩ := absorbEffect_cases L s
  · simp [hphase] at hp
  · simp [hblank] at hnot
  · rw [he]

/-- Settles O29: the empty chunk is blank, and its length is not noted. -/
theorem eosStopsTheStream : Obligations.EosStopsTheStream := by
  refine ⟨fun _ => rfl, fun s herr hphase => ?_, fun s herr hphase => ?_⟩
  · exact exec_absorb_of_blank (L := 0) herr hphase (by decide) rfl
  · exact exec_absorb_of_stopped (L := 0) herr hphase (by decide)

/-! ### Runs of host accesses -/

/-- `m` steps that complete, and then `n` more. -/
theorem run_add {m : Nat} (n : Nat) {s t : State} (h : Host.Core.run core m s = .next t) :
    Host.Core.run core (m + n) s = Host.Core.run core n t := by
  induction m generalizing s with
  | zero =>
    cases h
    rw [Nat.zero_add]
  | succ m ih =>
    rw [Nat.succ_add]
    simp only [Host.Core.run] at h ⊢
    split at h
    · exact ih h
    · cases h
    · cases h

/-- An instruction does what the core command it stands for does (R66). -/
theorem exec_expand (i : Instr) (s : State) : exec i.expand s = exec i s := by
  cases i <;> rfl

/-- No command touches the queue of the host's accesses. -/
theorem exec_bus {i : Instr} {s t : State} (h : exec i s = .next t) : t.bus = s.bus := by
  obtain ⟨-, -, -, -, -, hbus, -⟩ := eachRegisterIsWrittenOnlyByItsCommands i s t h
  exact hbus

/-- The accesses `as` are the next ones in the queue of `s`, they all complete, and `t` is the state after them. -/
structure State.Serves (as : List HostAccess) (s t : State) : Prop where
  bus_eq : s.bus = as ++ t.bus
  run_eq : Host.Core.run core as.length s = .next t

namespace State.Serves

variable {as bs : List HostAccess} {s t u : State}

theorem nil (s : State) : Serves [] s s := ⟨rfl, rfl⟩

theorem append (h : Serves as s t) (h' : Serves bs t u) : Serves (as ++ bs) s u := by
  constructor
  · rw [h.bus_eq, h'.bus_eq, List.append_assoc]
  · rw [List.length_append, run_add _ h.run_eq, h'.run_eq]

/-- One access, from its step. -/
theorem single {a : HostAccess} {rest : List HostAccess} (hbus : s.bus = a :: rest)
    (hstep : hostAccess a (s.takeAccess rest) = .next t) (hrest : t.bus = rest) : Serves [a] s t := by
  refine ⟨by rw [hbus, hrest]; rfl, ?_⟩
  have hrun : core.step s = .next t := (step_cons hbus).trans hstep
  simp only [List.length_singleton, Host.Core.run, hrun]

/-- A command that the host writes to CMD; `EOS` is sent as the word of `ABSORB 0` (R66). -/
theorem command {i : Instr} {rest : List HostAccess} (hbus : s.bus = commandWrite i :: rest)
    (hexec : exec i (s.takeAccess rest) = .next t) : Serves [commandWrite i] s t := by
  exact single hbus ((writeCommand_ok (decode_encode i) _).trans ((exec_expand i _).trans hexec)) (exec_bus hexec)

end State.Serves

/-! ### A chunk in BUF -/

theorem writeChunk_concat (bytes : List Byte) (b : Byte) :
    writeChunk (bytes ++ [b]) = writeChunk bytes ++ [.write8 bytes.length b] := by
  simp [writeChunk, List.zipIdx_append]

/-- The writes of a chunk change BUF and the model's own fields only, and BUF then lists the chunk (R41, R48): what BUF
lists does not depend on the access counter. -/
theorem exists_serves_writeChunk {bytes : List Byte} {s : State} {rest : List HostAccess} (hlen : bytes.length ≤ 1024)
    (hbus : s.bus = writeChunk bytes ++ rest) :
    ∃ m r n, State.Serves (writeChunk bytes) s { s with buf := m, bus := rest, reply := r, tick := n } ∧
      ∀ k, k < bytes.length → m.lookup k = bytes[k]? := by
  induction bytes using List.reverseRecOn generalizing rest with
  | nil =>
    obtain rfl : s.bus = rest := hbus
    exact ⟨s.buf, s.reply, s.tick, .nil s, nofun⟩
  | append_singleton bytes b ih =>
    rw [List.length_append, List.length_singleton] at hlen
    rw [writeChunk_concat, List.append_assoc] at hbus
    obtain ⟨m, r, n, hserves, hlist⟩ := ih (by omega) hbus
    have hwrite := hostWrite8_buf ⟨bytes.length, by omega⟩ b
    refine ⟨m.store bytes.length b, none, n + 1, ?_, fun k hk => ?_⟩
    · rw [writeChunk_concat]
      exact hserves.append (.single rfl (hwrite _) rfl)
    · rw [Memory.lookup_store]
      split_ifs with heq
      · rw [heq, List.getElem?_concat_length]
      · rw [List.length_append, List.length_singleton] at hk
        rw [hlist k (by omega), List.getElem?_append_left (by omega)]

/-- What BUF lists is what a command reads. -/
theorem State.chunk_of_lookup {bytes : List Byte} {s : State}
    (h : ∀ k, k < bytes.length → s.buf.lookup k = bytes[k]?) : s.chunk bytes.length = bytes := by
  refine List.ext_getElem (s.chunk_length _) fun k _ hk => ?_
  rw [State.chunk_getElem, State.bufByte, h k hk, List.getElem?_eq_getElem hk, Option.getD_some]

/-- The host presents a chunk (R67): its `ABSORB` executes in a state that presents the chunk (R41). -/
theorem exists_presents {c : List Byte} {s : State} {rest : List HostAccess} (hlen : c.length ≤ 1024)
    (hbus : s.bus = presentChunk c ++ rest) :
    ∃ u, s.presents c u ∧ u.bus = rest ∧
      ∀ t, exec (.absorb (BitVec.ofNat 11 c.length)) u = .next t → State.Serves (presentChunk c) s t := by
  rw [presentChunk, List.append_assoc] at hbus
  obtain ⟨m, r, n, hserves, hlist⟩ := exists_serves_writeChunk hlen hbus
  refine ⟨{ s with buf := m, bus := rest, reply := none, tick := n + 1 },
    ⟨⟨m, rest, none, n + 1, rfl⟩, State.chunk_of_lookup hlist⟩, rfl, fun t ht => ?_⟩
  exact hserves.append (.command rfl ht)

/-! ### What the chunks leave in the registers of the digest -/

/-- The state `t` has absorbed the chunks `cs` from `s` on: `acc[0..8]`, `pos` and `sum` have followed them (R12, R122,
R123, R134), and `err` is unchanged. -/
structure State.Absorbed (cs : List (List Byte)) (s t : State) : Prop where
  err_eq : t.err = s.err
  slot_eq : ∀ i : Fin 8, t.acc[i.val] = slotAfter i s.acc[i.val] cs
  crc_eq : t.acc[8] = crcAfter s.acc[8] cs
  pos_eq : t.pos = countAfter s.pos cs
  sum_eq : t.sum = sumAfter s.sum cs

namespace State.Absorbed

variable {s t u : State} {cs ds : List (List Byte)}

/-- No chunk has been absorbed where the registers are unchanged. -/
theorem nil (herr : t.err = s.err) (hacc : t.acc = s.acc) (hpos : t.pos = s.pos) (hsum : t.sum = s.sum) :
    Absorbed [] s t :=
  ⟨herr, fun _ => getElem_congr_coll hacc, getElem_congr_coll hacc, hpos, hsum⟩

theorem append (h : Absorbed cs s t) (h' : Absorbed ds t u) : Absorbed (cs ++ ds) s u := by
  refine ⟨h'.err_eq.trans h.err_eq, fun i => ?_, ?_, ?_, ?_⟩
  · rw [h'.slot_eq, h.slot_eq, slotAfter, slotAfter, slotAfter, List.foldl_append]
  · rw [h'.crc_eq, h.crc_eq, crcAfter, crcAfter, crcAfter, List.foldl_append]
  · rw [h'.pos_eq, h.pos_eq, countAfter, countAfter, countAfter, List.foldl_append]
  · rw [h'.sum_eq, h.sum_eq, sumAfter, sumAfter, sumAfter, List.foldl_append]

/-- Putting a chunk into BUF leaves the registers (R10). -/
theorem of_presents {c : List Byte} (h : s.presents c t) : Absorbed [] s t := by
  obtain ⟨⟨m, b, r, n, rfl⟩, -⟩ := h
  exact nil rfl rfl rfl rfl

end State.Absorbed

/-- The mixer on `acc[0..7]`: a short chunk goes into slot 0, a full one into every slot (R112, R113). -/
theorem State.mixStep_slot {L : BitVec 11} {c : List Byte} {s : State} (hL : L.toNat = c.length)
    (hchunk : s.chunk c.length = c) (i : Fin 8) : (s.mixStep L).acc[i.val] = slotAfter i s.acc[i.val] [c] := by
  rw [getElem_congr_coll (State.mixStep_acc s L)]
  simp only [hL, hchunk, slotAfter, List.foldl_cons, List.foldl_nil, Config.chunkMax]
  split
  case isTrue =>
    obtain ⟨_ | i, hi⟩ := i
    · exact mixShort_zero s.acc c
    · exact mixShort_other s.acc c (i + 1) (by omega) (by omega)
  case isFalse => exact mixFull_slot _ _ _ i.isLt

/-- A processed chunk is absorbed (R82). -/
theorem State.Absorbed.processChunk {L : BitVec 11} {c : List Byte} {s : State} (hL : L.toNat = c.length)
    (hchunk : s.chunk c.length = c) : State.Absorbed [c] s (s.processChunk L) where
  err_eq := State.processChunk_err L s
  slot_eq i := by
    rw [State.processChunk_acc_other L s i.val (by omega) (by omega), State.mixStep_slot hL hchunk]
  crc_eq := by
    rw [State.processChunk_acc_crc, hL, hchunk]
    rfl
  pos_eq := by
    have hwiden : L.setWidth 32 = BitVec.ofNat 32 c.length := by rw [← hL, BitVec.ofNat_toNat]
    rw [State.processChunk_pos, hwiden]
    rfl
  sum_eq := by
    rw [State.processChunk_sum, hL, hchunk]
    rfl

/-- The chunks that a stream still processes in a phase (R83, R85). -/
def processedIn (p : Phase) (cs : List (List Byte)) : List (List Byte) :=
  if p = .absorb then cs.takeWhile fun c => !isBlank c else []

@[simp] theorem processedIn_nil (p : Phase) : processedIn p [] = [] := by
  cases p <;> rfl

theorem toNat_ofNat_length {c : List Byte} (hlen : c.length ≤ 1024) : (BitVec.ofNat 11 c.length).toNat = c.length := by
  rw [BitVec.toNat_ofNat, Nat.mod_eq_of_lt (by omega)]

/-- An `ABSORB` of a presented chunk, in the three ways of R82, R83 and R85. -/
theorem exists_absorb {c : List Byte} {u : State} (herr : u.err = false)
    (hphase : u.phase = .absorb ∨ u.phase = .stopped) (hlen : c.length ≤ 1024) (hchunk : u.chunk c.length = c) :
    ∃ t ds, exec (.absorb (BitVec.ofNat 11 c.length)) u = .next t ∧ (t.phase = .absorb ∨ t.phase = .stopped) ∧
      u.Absorbed ds t ∧ ∀ cs, processedIn u.phase (c :: cs) = ds ++ processedIn t.phase cs := by
  have hL := toNat_ofNat_length hlen
  obtain habsorb | hstopped := hphase
  · cases hblank : isBlank c with
    | true =>
      refine ⟨_, [], exec_absorb_of_blank herr habsorb (hL.trans_le hlen) ?_, .inr rfl, .nil rfl rfl rfl rfl,
        fun cs => ?_⟩
      · rw [hL, hchunk, hblank]
      · simp [processedIn, hblank]
    | false =>
      refine ⟨_, [c], exec_absorb_of_not_blank herr habsorb (hL.trans_le hlen) ?_, .inl habsorb, ?_, fun cs => ?_⟩
      · rw [hL, hchunk, hblank]
      · have hnote : State.Absorbed [] u (u.noteLength (BitVec.ofNat 11 c.length)) := .nil rfl rfl rfl rfl
        exact hnote.append (.processChunk hL hchunk)
      · simp [processedIn, hblank, habsorb, State.processChunk_phase]
  · refine ⟨u, [], exec_absorb_of_stopped herr hstopped (hL.trans_le hlen), .inr hstopped, .nil rfl rfl rfl rfl,
      fun cs => ?_⟩
    simp [processedIn, hstopped]

/-- The host presents a chunk and has it absorbed; which of the later chunks still count is
for the next phase to say. -/
theorem exists_serves_presentChunk {c : List Byte} {s : State} {rest : List HostAccess} (herr : s.err = false)
    (hphase : s.phase = .absorb ∨ s.phase = .stopped) (hlen : c.length ≤ 1024)
    (hbus : s.bus = presentChunk c ++ rest) :
    ∃ t ds, State.Serves (presentChunk c) s t ∧ t.bus = rest ∧ (t.phase = .absorb ∨ t.phase = .stopped) ∧
      s.Absorbed ds t ∧ ∀ cs, processedIn s.phase (c :: cs) = ds ++ processedIn t.phase cs := by
  obtain ⟨u, hpresents, hrest, hserves⟩ := exists_presents hlen hbus
  have hwritten := State.Absorbed.of_presents hpresents
  obtain ⟨⟨m, b, r, n, hu⟩, hchunk⟩ := hpresents
  have hsame : u.phase = s.phase := by rw [hu]
  obtain ⟨t, ds, hexec, htphase, habsorbed, hsplit⟩ :=
    exists_absorb (hwritten.err_eq.trans herr) (hsame ▸ hphase) hlen hchunk
  exact ⟨t, ds, hserves t hexec, (exec_bus hexec).trans hrest, htphase, hwritten.append habsorbed, hsame ▸ hsplit⟩

/-- The host presents the chunks one after another: those before the first blank one are absorbed (R83, R85, R90). -/
theorem exists_serves_presentChunks {cs : List (List Byte)} {s : State} {rest : List HostAccess} (herr : s.err = false)
    (hphase : s.phase = .absorb ∨ s.phase = .stopped) (hlen : ∀ c ∈ cs, c.length ≤ 1024)
    (hbus : s.bus = cs.flatMap presentChunk ++ rest) :
    ∃ t, State.Serves (cs.flatMap presentChunk) s t ∧ t.bus = rest ∧ (t.phase = .absorb ∨ t.phase = .stopped) ∧
      s.Absorbed (processedIn s.phase cs) t := by
  induction cs generalizing s with
  | nil =>
    refine ⟨s, .nil s, hbus, hphase, ?_⟩
    rw [processedIn_nil]
    exact .nil rfl rfl rfl rfl
  | cons c cs ih =>
    obtain ⟨hc, hcs⟩ := List.forall_mem_cons.1 hlen
    rw [List.flatMap_cons, List.append_assoc] at hbus
    obtain ⟨t, ds, hserves, hrest, htphase, habsorbed, hsplit⟩ := exists_serves_presentChunk herr hphase hc hbus
    obtain ⟨u, hserves', hrest', huphase, habsorbed'⟩ := ih (habsorbed.err_eq.trans herr) htphase hcs hrest
    refine ⟨u, ?_, hrest', huphase, ?_⟩
    · rw [List.flatMap_cons]
      exact hserves.append hserves'
    · rw [hsplit]
      exact habsorbed.append habsorbed'

/-- The chunks of a stream fit in BUF (R90). -/
theorem length_le_of_mem_cutInto {n : Nat} {bytes c : List Byte} (h : c ∈ cutInto n bytes) : c.length ≤ 1024 := by
  induction n generalizing bytes with
  | zero => cases h
  | succ n ih =>
    rw [cutInto] at h
    split at h
    · cases h
    · obtain rfl | h := List.mem_cons.1 h
      · exact List.length_take_le ..
      · exact ih h

/-! ### The end of a stream -/

/-- `EOS` closes an open stream and leaves a closed one as it is (R66, R83, R85). -/
theorem exec_eos_of_open {s : State} (herr : s.err = false) (hphase : s.phase = .absorb ∨ s.phase = .stopped) :
    exec .eos s = .next (s.setPhase .stopped) := by
  obtain ⟨-, hstops, hstays⟩ := eosStopsTheStream
  obtain hp | hp := hphase
  · exact hstops s herr hp
  · rw [hstays s herr hp, State.setPhase, ← hp]

theorem exec_final_of_open {s : State} (herr : s.err = false) (hphase : s.phase = .absorb ∨ s.phase = .stopped) :
    exec .final s = .next (s.finalEffect Config.constants) := by
  rw [exec_eq, gate_effect herr ((finalLegal_iff _).2 hphase)]

theorem exec_render_of_final {s : State} (herr : s.err = false) (hphase : s.phase = .final) :
    exec .render s = .next s.renderText := by
  rw [exec_eq, gate_effect herr ((renderLegal_iff _).2 hphase)]

namespace State.Serves

variable {s : State} {rest : List HostAccess}

theorem init (herr : s.err = false) (hbus : s.bus = commandWrite .init :: rest) :
    Serves [commandWrite .init] s ((s.takeAccess rest).initialise Config.constants) :=
  command hbus (exec_init_of_err_false herr)

theorem eos (herr : s.err = false) (hphase : s.phase = .absorb ∨ s.phase = .stopped)
    (hbus : s.bus = commandWrite .eos :: rest) :
    Serves [commandWrite .eos] s ((s.takeAccess rest).setPhase .stopped) :=
  command hbus (exec_eos_of_open herr hphase)

theorem final (herr : s.err = false) (hphase : s.phase = .absorb ∨ s.phase = .stopped)
    (hbus : s.bus = commandWrite .final :: rest) :
    Serves [commandWrite .final] s ((s.takeAccess rest).finalEffect Config.constants) :=
  command hbus (exec_final_of_open herr hphase)

theorem render (herr : s.err = false) (hphase : s.phase = .final) (hbus : s.bus = commandWrite .render :: rest) :
    Serves [commandWrite .render] s (s.takeAccess rest).renderText :=
  command hbus (exec_render_of_final herr hphase)

end State.Serves

/-- Assembly puts the byte count into `acc[9]` (R150). -/
theorem State.finalEffect_acc_count (c : Constants) (s : State) : (s.finalEffect c).acc[9] = s.pos := by
  simp [getElem_congr_coll (State.finalEffect_acc c s)]

/-- Assembly puts the running sum into `acc[10]` (R150). -/
theorem State.finalEffect_acc_sum (c : Constants) (s : State) : (s.finalEffect c).acc[10] = s.sum := by
  simp [getElem_congr_coll (State.finalEffect_acc c s)]

/-- `EOS`, `FINAL`, `RENDER`: the digest is assembled from the registers and its text rendered (R86, R88, R90). -/
theorem exists_serves_closing {s : State} (herr : s.err = false) (hphase : s.phase = .absorb ∨ s.phase = .stopped)
    (hbus : s.bus = [commandWrite .eos, commandWrite .final, commandWrite .render]) :
    ∃ t, State.Serves [commandWrite .eos, commandWrite .final, commandWrite .render] s t ∧ t.bus = [] ∧
      t.finished = true ∧ (∀ i (_ : i < 9), t.acc[i] = s.acc[i]) ∧ t.acc[9] = s.pos ∧ t.acc[10] = s.sum ∧
      t.txt = renderedText t.acc := by
  have hserves := ((State.Serves.eos herr hphase hbus).append (.final herr (.inr rfl) rfl)).append
    (.render herr rfl rfl)
  refine ⟨_, hserves, State.renderText_bus _, ?_, fun i hi => ?_, ?_, ?_, ?_⟩
  · simp [State.finished, State.faulted, herr]
  · exact (getElem_congr_coll (State.renderText_acc _)).trans (State.finalEffect_acc_other _ _ i hi)
  · exact (getElem_congr_coll (State.renderText_acc _)).trans (State.finalEffect_acc_count _ _)
  · exact (getElem_congr_coll (State.renderText_acc _)).trans (State.finalEffect_acc_sum _ _)
  · rw [State.renderText_txt, State.renderText_acc]

/-- Settles O45: `INIT`, then the chunks, then the end of the stream. -/
theorem hostStreamGivesItsDigest : Obligations.HostStreamGivesItsDigest := by
  intro bytes s herr hbus
  obtain ⟨t, hchunks, hrest, hphase, habsorbed⟩ := exists_serves_presentChunks (cs := chunksOf bytes)
    (s := (s.takeAccess _).initialise Config.constants) herr (.inl rfl) (fun c => length_le_of_mem_cutInto) rfl
  obtain ⟨u, hclosing, hempty, hfinished, hacc, hcount, hsum, htext⟩ :=
    exists_serves_closing (habsorbed.err_eq.trans herr) hphase hrest
  refine ⟨u, (((State.Serves.init herr hbus).append hchunks).append hclosing).run_eq, hfinished, hempty,
    fun i => ?_, ?_, ?_, ?_, htext⟩
  · rw [hacc i.val (by omega), habsorbed.slot_eq]
    exact congrArg (slotAfter i · _) (initialAcc_slot Config.constants i.val i.isLt)
  · rw [hacc 8 (by omega), habsorbed.crc_eq]
    exact congrArg (crcAfter · _) (initialAcc_rest Config.constants 8 (by omega) (by omega))
  · exact hcount.trans habsorbed.pos_eq
  · exact hsum.trans habsorbed.sum_eq

end Sys2Proof.Machine
end

section
/-! PROOFS. The statements of spec/40_commands.md. -/

namespace Sys2Proof.Machine

/-! ### Commands one after another -/

theorem execAll_cons_of_next {i : Instr} {is : List Instr} {s t : State} (h : exec i s = .next t) :
    execAll (i :: is) s = execAll is t := by
  rw [execAll, h]

theorem execAll_append_of_next {is js : List Instr} {s t : State} (h : execAll is s = .next t) :
    execAll (is ++ js) s = execAll js t := by
  induction is generalizing s with
  | nil =>
    cases h
    rfl
  | cons i is ih =>
    obtain ⟨u, hu⟩ : ∃ u, exec i s = .next u := ⟨_, exec_eq i s⟩
    rw [execAll_cons_of_next hu] at h
    rw [List.cons_append, execAll_cons_of_next hu, ih h]

/-- `FINAL` and `RENDER` at the end of a stream (R86, R88). -/
theorem execAll_final_render_of_open {s : State} (herr : s.err = false)
    (hphase : s.phase = .absorb ∨ s.phase = .stopped) :
    execAll [.final, .render] s = .next (s.finalEffect Config.constants).renderText := by
  have hrender := exec_render_of_final (s := s.finalEffect Config.constants) herr rfl
  rw [execAll_cons_of_next (exec_final_of_open herr hphase), execAll_cons_of_next hrender, execAll]

/-! ### Which bytes of BUF reach a computation -/

theorem lengthOk_of_too_long {L : BitVec 11} (hL : 1024 < L.toNat) : lengthOk L = false := by
  rwa [← Bool.not_eq_true, lengthOk_iff, not_le]

theorem State.noteLength_llast_cases (L : BitVec 11) (s : State) :
    (s.noteLength L).llast = s.llast ∨ (s.noteLength L).llast = L :=
  ite_eq_or_eq ..

/-- How a command can change `llast` (R21, R81, R82). -/
theorem CommandOutcome.llast_cases {i : Instr} {s t : State} (h : CommandOutcome i s t) :
    t.llast = s.llast ∨ t.llast = 0 ∨ ∃ L, i = .absorb L ∧ L.toNat ≤ 1024 ∧ t.llast = L := by
  cases h with
  | ignored => exact .inl rfl
  | faults f => exact .inl rfl
  | starts => exact .inr (.inl rfl)
  | stops L hi _ _ hL =>
    obtain rfl | ⟨-, rfl⟩ := hi
    · exact (s.noteLength_llast_cases L).imp_right fun h => .inr ⟨L, rfl, hL, h⟩
    · exact .inl rfl
  | processes L _ _ hL => exact (s.noteLength_llast_cases L).imp_right fun h => .inr ⟨L, rfl, hL, h⟩
  | finishes => exact .inl rfl
  | renders => exact .inl (State.renderText_llast s)

/-- The command names no byte of BUF from address `n` on; a length that faults names none (R42, R61). -/
def NamesBelow (n : Nat) (i : Instr) : Prop := ∀ L, i = .absorb L → L.toNat ≤ 1024 → L.toNat ≤ n

theorem CommandOutcome.llast_le {n : Nat} {i : Instr} {s t : State} (h : CommandOutcome i s t)
    (hi : NamesBelow n i) (hs : s.llast.toNat ≤ n) : t.llast.toNat ≤ n := by
  obtain hsame | hzero | ⟨L, rfl, hL, hnoted⟩ := h.llast_cases
  · rwa [hsame]
  · rw [hzero]
    exact Nat.zero_le n
  · rw [hnoted]
    exact hi L rfl hL

namespace State.AgreeBelow

variable {n : Nat} {s t : State}

theorem initialise (h : s.AgreeBelow n t) (c : Constants) : (s.initialise c).AgreeBelow n (t.initialise c) := by
  obtain ⟨b, rfl⟩ := h.exists_buf
  exact ⟨rfl, h.bytes⟩

/-- `FINAL` reads BUF below `llast` only (R143). -/
theorem sigFinalise (h : s.AgreeBelow n t) (hn : s.llast.toNat ≤ n) (c : Constants) :
    (s.sigFinalise c).AgreeBelow n (t.sigFinalise c) := by
  have hllast : s.llast = t.llast := (congrArg State.llast h.same :)
  have hsig : (s.sigFinalise c).sig = (t.sigFinalise c).sig := by
    ext i hi
    rw [State.sigFinalise_word, State.sigFinalise_word, h.sig_eq, ← hllast]
    split_ifs with hlead
    · rw [h.bytes i ((lt_min_iff.1 hlead).1.trans_le hn)]
    · rfl
  obtain ⟨b, rfl⟩ := h.exists_buf
  exact ⟨congrArg (fun x => { s with sig := x, buf := b }) hsig, h.bytes⟩

theorem assemble (h : s.AgreeBelow n t) : s.assemble.AgreeBelow n t.assemble := by
  obtain ⟨b, rfl⟩ := h.exists_buf
  exact ⟨rfl, h.bytes⟩

theorem finalEffect (h : s.AgreeBelow n t) (hn : s.llast.toNat ≤ n) (c : Constants) :
    (s.finalEffect c).AgreeBelow n (t.finalEffect c) :=
  ((h.sigFinalise hn c).assemble).setPhase .final

theorem renderText (h : s.AgreeBelow n t) : s.renderText.AgreeBelow n t.renderText := by
  refine ⟨?_, fun k hk => ?_⟩
  · obtain ⟨b, rfl⟩ := h.exists_buf
    simp only [State.sameButBuf, State.renderText_eq]
  · rw [State.bufByte_renderText, State.bufByte_renderText]
    exact h.bytes k hk

/-- A length that fails check 3 keeps `ABSORB` from reading BUF at all (R80). -/
theorem absorbCommand_of_namesBelow {L : BitVec 11} (h : s.AgreeBelow n t) (hL : NamesBelow n (.absorb L)) :
    (Machine.absorbCommand L s).AgreeBelow n (Machine.absorbCommand L t) := by
  by_cases hok : L.toNat ≤ 1024
  · exact h.absorbCommand (hL L rfl hok)
  · have hread (u : State) : Machine.absorbCommand L u = Machine.gate false absorbLegal id u := by
      simp only [Machine.absorbCommand, Machine.gate, lengthOk_of_too_long (not_le.1 hok), Bool.not_false, if_true]
    rw [hread, hread]
    exact h.gate h

/-- States that agree below `n` go on agreeing there by a command that reads BUF below `n` only. -/
theorem exists_exec {i : Instr} (h : s.AgreeBelow n t) (hn : s.llast.toNat ≤ n) (hi : NamesBelow n i) :
    ∃ s' t', exec i s = .next s' ∧ exec i t = .next t' ∧ s'.AgreeBelow n t' ∧ s'.llast.toNat ≤ n := by
  refine ⟨_, _, exec_eq i s, exec_eq i t, ?_, (exec_outcome (exec_eq i s)).llast_le hi hn⟩
  cases i with
  | init => exact h.gate (h.initialise _)
  | absorb L => exact h.absorbCommand_of_namesBelow hi
  | eos => exact h.absorbCommand (Nat.zero_le n)
  | final => exact h.gate (h.finalEffect hn _)
  | render => exact h.gate h.renderText

theorem exists_execAll {is : List Instr} (h : s.AgreeBelow n t) (hn : s.llast.toNat ≤ n)
    (his : ∀ i ∈ is, NamesBelow n i) :
    ∃ s' t', execAll is s = .next s' ∧ execAll is t = .next t' ∧ s'.AgreeBelow n t' := by
  induction is generalizing s t with
  | nil => exact ⟨s, t, rfl, rfl, h⟩
  | cons i is ih =>
    obtain ⟨hi, his⟩ := List.forall_mem_cons.1 his
    obtain ⟨s', t', hs, ht, h', hn'⟩ := h.exists_exec hn hi
    rw [execAll_cons_of_next hs, execAll_cons_of_next ht]
    exact ih h' hn' his

end State.AgreeBelow

/-- The bytes that a list of commands names are `buf[0:n]` for one `n`: the address of the first byte on which the states
differ, or the size of BUF. -/
theorem exists_namesBelow {is : List Instr} {s t : State}
    (h : ∀ L, .absorb L ∈ is → L.toNat ≤ 1024 → ∀ k, k < L.toNat → s.bufByte k = t.bufByte k) :
    ∃ n, (∀ i ∈ is, NamesBelow n i) ∧ ∀ k, k < n → s.bufByte k = t.bufByte k := by
  by_cases hdiff : ∃ k, s.bufByte k ≠ t.bufByte k
  · refine ⟨Nat.find hdiff, ?_, fun k hk => not_not.1 (Nat.find_min hdiff hk)⟩
    rintro _ hi L rfl hL
    exact not_lt.1 fun hlt => Nat.find_spec hdiff (h L hi hL _ hlt)
  · refine ⟨1024, ?_, fun k _ => not_not.1 (not_exists.1 hdiff k)⟩
    exact fun _ _ _ _ hL => hL

/-- `INIT` overwrites every register that the two states may differ in (R81). -/
theorem State.initialise_sameButBuf {s t : State} (herr : s.err = t.err) (hecode : s.ecode = t.ecode)
    (hbus : s.bus = t.bus) (hreply : s.reply = t.reply) (htick : s.tick = t.tick) (c : Constants) :
    (s.initialise c).sameButBuf (t.initialise c) := by
  simp only [State.sameButBuf, State.initialise, herr, hecode, hbus, hreply, htick]

/-- Settles O59: after `INIT`, which clears `llast`, the states agree below the first byte on which they differ, and the
commands read BUF only there. -/
theorem onlyNamedBytesReachTheNewComputation : Obligations.OnlyNamedBytesReachTheNewComputation := by
  intro later s t hs ht hecode hbus hreply htick hbytes
  obtain ⟨n, hnames, hbelow⟩ := exists_namesBelow hbytes
  have hinit : (s.initialise Config.constants).AgreeBelow n (t.initialise Config.constants) :=
    ⟨State.initialise_sameButBuf (hs.trans ht.symm) hecode hbus hreply htick _, hbelow⟩
  obtain ⟨s', t', hs', ht', h'⟩ := hinit.exists_execAll (Nat.zero_le n) hnames
  rw [execAll_cons_of_next (exec_init_of_err_false hs), execAll_cons_of_next (exec_init_of_err_false ht)]
  exact ⟨s', t', hs', ht', h'.same⟩

/-- Settles O23: `EOS`, `FINAL` and `RENDER` name no byte. -/
theorem initCutsOffTheOldComputation : Obligations.InitCutsOffTheOldComputation := by
  intro s t hs ht hecode hbus hreply htick
  exact onlyNamedBytesReachTheNewComputation [.eos, .final, .render] s t hs ht hecode hbus hreply htick
    (fun L hL => by simp at hL)

/-! ### The end of a computation -/

/-- Settles O37: `FINAL` overwrites the phase that `EOS` has set, and reads it only in the check. -/
theorem finalNeedsNoEos : Obligations.FinalNeedsNoEos := by
  intro s herr hphase
  refine ⟨s.finalEffect Config.constants, ?_, ?_⟩
  · rw [execAll_cons_of_next (exec_final_of_open herr (.inl hphase)), execAll]
  · rw [execAll_cons_of_next (exec_eos_of_open herr (.inl hphase)),
      execAll_cons_of_next (exec_final_of_open (s := s.setPhase .stopped) herr (.inr rfl))]
    rfl

/-- With no length noted `FINAL` leaves the signature (R143). -/
theorem State.sigFinalise_sig_of_llast_zero {s : State} (h : s.llast = 0) (c : Constants) :
    (s.sigFinalise c).sig = s.sig := by
  ext i hi
  rw [State.sigFinalise_word, h, leadLength, if_neg (by simp)]

/-- Assembly puts `sig[0]` into `acc[11]` (R150). -/
theorem State.finalEffect_acc_sig (c : Constants) (s : State) :
    (s.finalEffect c).acc[11] = (s.finalEffect c).sig[0] := by
  simp [getElem_congr_coll (State.finalEffect_acc c s)]

/-- The state of a computation that was closed before any chunk (R90). -/
def State.emptyStream (s : State) : State := (s.initialise Config.constants).setPhase .stopped

theorem execAll_init_eos {is : List Instr} {s : State} (herr : s.err = false) :
    execAll (.init :: .eos :: is) s = execAll is s.emptyStream := by
  have heos := exec_eos_of_open (s := s.initialise Config.constants) herr (.inl rfl)
  rw [execAll_cons_of_next (exec_init_of_err_false herr), execAll_cons_of_next heos, State.emptyStream]

/-- Settles O43: `FINAL` on registers that hold what `INIT` gave them. -/
theorem emptyStreamLeavesTheConstants : Obligations.EmptyStreamLeavesTheConstants := by
  intro s herr
  have hsig : (s.emptyStream.finalEffect Config.constants).sig = Config.sigiv := by
    rw [State.finalEffect_sig, State.sigFinalise_sig_of_llast_zero (s := s.emptyStream) rfl]
    rfl
  have hacc (i : Nat) (hi : i < 9) :
      (s.emptyStream.finalEffect Config.constants).acc[i] = (initialAcc Config.constants)[i] :=
    State.finalEffect_acc_other _ _ i hi
  refine ⟨(s.emptyStream.finalEffect Config.constants).renderText, ?_, ?_⟩
  · rw [execAll_init_eos herr]
    exact execAll_final_render_of_open herr (.inr rfl)
  simp only [State.renderText_acc, State.renderText_sig, State.renderText_llast, State.renderText_txt]
  refine ⟨fun i => ?_, ?_, ?_, ?_, fun i => getElem_congr_coll hsig, ?_, rfl, ?_, trivial⟩
  · exact (hacc i.val (by omega)).trans (initialAcc_slot _ i.val i.isLt)
  · exact (hacc 8 (by omega)).trans (initialAcc_rest _ 8 (by omega) le_rfl)
  · exact State.finalEffect_acc_count _ _
  · exact State.finalEffect_acc_sum _ _
  · rw [State.finalEffect_acc_sig, getElem_congr_coll hsig]
  · have hopen : s.emptyStream.err = false := herr
    simp [State.finished, State.faulted, hopen]

/-- The text is that of `acc[0..8]` (R152). -/
theorem renderedText_congr {a b : Vector Word 12} (h : ∀ i (_ : i < 9), a[i] = b[i]) :
    renderedText a = renderedText b := by
  ext j hj
  rw [renderedText_char, renderedText_char, h (j / 2 / 4) (by omega)]

/-- `FINAL` makes `acc[0..10]` of `acc[0..8]`, `pos` and `sum` (R150). -/
theorem State.finalEffect_acc_congr {s t : State} (hacc : s.acc = t.acc) (hpos : s.pos = t.pos) (hsum : s.sum = t.sum)
    (c : Constants) (i : Nat) (hi : i < 11) : (s.finalEffect c).acc[i] = (t.finalEffect c).acc[i] := by
  obtain h9 | rfl | rfl : i < 9 ∨ i = 9 ∨ i = 10 := by omega
  · rw [State.finalEffect_acc_other c s i h9, State.finalEffect_acc_other c t i h9, hacc]
  · rw [State.finalEffect_acc_count, State.finalEffect_acc_count, hpos]
  · rw [State.finalEffect_acc_sum, State.finalEffect_acc_sum, hsum]

/-- Settles O44: the two ends of the stream differ in `llast` only, which reaches the signature and `acc[11]` alone. -/
theorem earlyStopLeavesTheSameDigest : Obligations.EarlyStopLeavesTheSameDigest := by
  intro L later s herr hphase hL hblank hlater
  have hacc (i : Nat) (hi : i < 11) :=
    State.finalEffect_acc_congr (s := (s.noteLength L).setPhase .stopped) (t := s.setPhase .stopped) rfl rfl rfl
      Config.constants i hi
  have hdiscarded := noAbsorbChangesAnythingAfterTheStop later ((s.noteLength L).setPhase .stopped) herr rfl hlater
  refine ⟨(((s.noteLength L).setPhase .stopped).finalEffect Config.constants).renderText,
    ((s.setPhase .stopped).finalEffect Config.constants).renderText, ?_, ?_, fun i hi => ?_, ?_⟩
  · rw [List.cons_append, execAll_cons_of_next (exec_absorb_of_blank herr hphase hL hblank),
      execAll_append_of_next hdiscarded]
    exact execAll_final_render_of_open herr (.inr rfl)
  · rw [execAll_cons_of_next (exec_eos_of_open herr (.inl hphase))]
    exact execAll_final_render_of_open herr (.inr rfl)
  · simp only [State.renderText_acc]
    exact hacc i.val hi
  · rw [State.renderText_txt, State.renderText_txt]
    exact renderedText_congr fun i hi => hacc i (by omega)

/-- `RENDER` does not read the old text (R155). -/
theorem State.renderText_renderText (s : State) : s.renderText.renderText = s.renderText := by
  simp only [State.renderText_eq]

/-- Settles O41: `RENDER` leaves `err`, `phase` and `acc`, which are all that it reads. -/
theorem renderIsRepeatable : Obligations.RenderIsRepeatable := by
  intro s herr hphase
  have hagain := exec_render_of_final ((State.renderText_err s).trans herr) ((State.renderText_phase s).trans hphase)
  rw [State.renderText_renderText] at hagain
  exact ⟨s.renderText, exec_render_of_final herr hphase, hagain⟩

/-! ### Commands that fault -/

theorem exec_absorb_of_too_long {L : BitVec 11} {s : State} (herr : s.err = false) (hL : 1024 < L.toNat) :
    exec (.absorb L) s = .next (s.raiseFault .badLength) := by
  rw [exec_eq]
  simp only [absorbCommand, lengthOk_of_too_long hL, gate_badLength herr]

/-- The phases in which `ABSORB` faults (R80). -/
theorem absorbLegal_of_closed {p : Phase} (h : p = .idle ∨ p = .final) : absorbLegal p = false := by
  obtain rfl | rfl := h <;> rfl

theorem exec_absorb_of_closed {L : BitVec 11} {s : State} (herr : s.err = false)
    (hphase : s.phase = .idle ∨ s.phase = .final) (hL : L.toNat ≤ 1024) :
    exec (.absorb L) s = .next (s.raiseFault .badPhase) := by
  rw [exec_eq]
  simp only [absorbCommand, (lengthOk_iff L).2 hL, gate_badPhase herr (absorbLegal_of_closed hphase)]

/-- `FINAL` is legal in the phases of `ABSORB` (R80). -/
theorem exec_final_of_closed {s : State} (herr : s.err = false) (hphase : s.phase = .idle ∨ s.phase = .final) :
    exec .final s = .next (s.raiseFault .badPhase) := by
  have hlegal : finalLegal s.phase = false := absorbLegal_of_closed hphase
  rw [exec_eq, gate_badPhase herr hlegal]

theorem exec_render_of_not_final {s : State} (herr : s.err = false) (hphase : s.phase ≠ .final) :
    exec .render s = .next (s.raiseFault .badPhase) := by
  have hlegal : renderLegal s.phase = false := by rwa [← Bool.not_eq_true, renderLegal_iff]
  rw [exec_eq, gate_badPhase herr hlegal]

/-- Settles O16, by the phases in which each command is legal; `EOS` is `ABSORB 0`. -/
theorem commandsInWrongPhaseRaiseBadPhase : Obligations.CommandsInWrongPhaseRaiseBadPhase := by
  intro s herr
  refine ⟨fun L hL hphase => exec_absorb_of_closed herr hphase hL,
    fun hphase => exec_absorb_of_closed (L := 0) herr hphase (by decide),
    fun hphase => exec_final_of_closed herr hphase, fun hphase => exec_render_of_not_final herr ?_⟩
  obtain hp | hp | hp := hphase <;> simp [hp]

/-! ### INIT and ABSORB -/

/-- Settles O21: the next state is the effect of `INIT`. -/
theorem initCreatesTheComputation : Obligations.InitCreatesTheComputation := by
  intro s herr
  have hrest (i : Nat) (hi : i < 12) (h8 : 8 ≤ i) : (s.initialise Config.constants).acc[i] = 0 :=
    initialAcc_rest Config.constants i hi h8
  exact ⟨s.initialise Config.constants, exec_init_of_err_false herr,
    fun i => initialAcc_slot Config.constants i.val i.isLt,
    hrest 8 _ (by omega), hrest 9 _ (by omega), hrest 10 _ (by omega), hrest 11 _ (by omega), fun _ => rfl,
    rfl, rfl, rfl, fun k => by simp, rfl, herr, rfl, rfl, rfl, rfl, rfl⟩

/-- Settles O26: the length is noted and the stream stops. -/
theorem absorbOfABlankChunkStops : Obligations.AbsorbOfABlankChunkStops :=
  fun _ _ herr hphase hL hblank => exec_absorb_of_blank herr hphase hL hblank

/-- Settles O27; the ways out of STOPPED are those of the table of phases (R80). -/
theorem absorbIsDiscardedWhenStopped : Obligations.AbsorbIsDiscardedWhenStopped := by
  refine ⟨fun L s => exec_absorb_of_stopped, fun L s herr _ hL => exec_absorb_of_too_long herr hL,
    fun i s t hphase hexec hleaves => ?_⟩
  obtain hsame | ⟨-, ⟨hi, -⟩ | ⟨-, habsorb, -⟩ | ⟨hi, -⟩⟩ := (exec_outcome hexec).phase_cases
  · exact absurd (hsame.trans hphase) hleaves
  · exact .inr hi
  · simp [hphase] at habsorb
  · exact .inl hi

/-! ### Blank chunks -/

/-- The whitespace set by the numbers of its bytes (R84). -/
theorem mem_whitespace_iff (b : Byte) : b ∈ Config.whitespace ↔ (9 ≤ b.toNat ∧ b.toNat ≤ 13) ∨ b.toNat = 32 := by
  simp only [Config.whitespace, List.mem_cons, List.not_mem_nil, ← BitVec.toNat_inj, BitVec.toNat_ofNat, Nat.reducePow,
    Nat.reduceMod, or_false]
  omega

/-- Settles O52, byte by byte. -/
theorem blankMeansAllWhitespace : Obligations.BlankMeansAllWhitespace := by
  intro bytes
  simp only [isBlank, List.all_eq_true, List.contains_iff_mem, mem_whitespace_iff]

end Sys2Proof.Machine
end

section
/-! PROOFS. The statements of spec/41_polyhash.md. -/

namespace Sys2Proof.Machine

/-! ### The hash from a start value -/

/-- A start value is carried through the bytes with one factor 127 for each (R100). -/
theorem foldl_hashStep (bytes : List Byte) (r : Word) :
    bytes.foldl (fun r b => r * Config.hashMultiplier + widen b) r = r * 127#32 ^ bytes.length + polyhash bytes := by
  induction bytes generalizing r with
  | nil => simp [polyhash]
  | cons b bytes ih =>
    have hfirst : polyhash (b :: bytes) = widen b * 127#32 ^ bytes.length + polyhash bytes := by
      simpa [polyhash] using ih (widen b)
    rw [List.foldl_cons, ih, hfirst, List.length_cons, Config.hashMultiplier, BitVec.pow_succ]
    ring

@[simp] theorem polyhash_nil : polyhash [] = 0 := rfl

theorem polyhash_append (a b : List Byte) : polyhash (a ++ b) = polyhash a * 127#32 ^ b.length + polyhash b := by
  rw [polyhash, List.foldl_append, foldl_hashStep b, ← polyhash]

theorem polyhash_singleton (v : Byte) : polyhash [v] = v.setWidth 32 := by
  simp [polyhash]

theorem polyhash_cons (b : Byte) (bytes : List Byte) :
    polyhash (b :: bytes) = b.setWidth 32 * 127#32 ^ bytes.length + polyhash bytes := by
  rw [← polyhash_singleton, ← polyhash_append, List.singleton_append]

/-! ### The closed form -/

/-- The sum of R101 before it is reduced: the first byte has the highest power. -/
def powerSum (bytes : List Byte) : Nat :=
  ∑ k ∈ Finset.range bytes.length, (bytes.getD k 0).toNat * 127 ^ (bytes.length - 1 - k)

theorem powerSum_cons (b : Byte) (bytes : List Byte) :
    powerSum (b :: bytes) = b.toNat * 127 ^ bytes.length + powerSum bytes := by
  have hexp (k : Nat) : bytes.length - 1 - k = bytes.length - (k + 1) := by omega
  rw [powerSum, List.length_cons, Finset.sum_range_succ', add_comm]
  simp [powerSum, hexp]

theorem polyhash_eq_powerSum (bytes : List Byte) : polyhash bytes = BitVec.ofNat 32 (powerSum bytes) := by
  induction bytes with
  | nil => rfl
  | cons b bytes ih =>
    rw [polyhash_cons, powerSum_cons, ih, BitVec.ofNat_add, BitVec.ofNat_mul, BitVec.ofNat_pow, BitVec.ofNat_toNat]

/-- 127 is 2^7 - 1, so the multiply is a shift and a subtraction (R101). -/
theorem mul_hashMultiplier (r : Word) : r * 127#32 = (r <<< 7) - r := by
  have hsplit : 127#32 = BitVec.twoPow 32 7 - 1 := by decide
  rw [hsplit, mul_sub, mul_one, BitVec.mul_twoPow_eq_shiftLeft]

/-- Settles O46: the closed form by induction on the bytes, the rest from the hash of an append. -/
theorem polyhashClosedForm : Obligations.PolyhashClosedForm := by
  refine ⟨fun bytes => ?_, polyhash_nil, polyhash_singleton, fun bytes => ?_, polyhash_append, mul_hashMultiplier⟩
  · rw [polyhash_eq_powerSum, BitVec.toNat_ofNat, powerSum]
  · simp [polyhash_cons]

end Sys2Proof.Machine
end

section
/-! PROOFS. The statements of spec/42_mixer.md. -/

namespace Sys2Proof.Machine

/-! ### The rotation -/

/-- The rotation of R110 is the library's, for a count below the width of a word. -/
theorem rotl32_eq_rotateLeft (x : Word) {c : Nat} (hc : c < 32) : rotl32 x c = x.rotateLeft c :=
  (BitVec.rotateLeft_eq_rotateLeftAux_of_lt hc).symm

/-- The bits of a rotated word: the top `c` bits have become the lowest ones. -/
theorem getLsbD_rotl32 (x : Word) {c i : Nat} (hc : c < 32) (hi : i < 32) :
    (rotl32 x c).getLsbD i = if i < c then x.getLsbD (32 - c + i) else x.getLsbD (i - c) := by
  rw [rotl32_eq_rotateLeft x hc, BitVec.getLsbD_rotateLeft_of_le hc]
  simp [hi, Bool.cond_eq_ite]

/-- Settles O47: bit `j` stays below the top of the word or wraps around. -/
theorem rotateMovesEveryBit : Obligations.RotateMovesEveryBit := by
  refine ⟨fun x c _ hc => ⟨rfl, fun j hj => ?_⟩, by decide⟩
  rw [getLsbD_rotl32 x (by omega) (Nat.mod_lt _ (by omega))]
  obtain hstays | hwraps := Nat.lt_or_ge (j + c) 32
  · rw [Nat.mod_eq_of_lt hstays, if_neg (by omega), Nat.add_sub_cancel]
  · have hmod : (j + c) % 32 = j + c - 32 := by omega
    have hback : 32 - c + (j + c - 32) = j := by omega
    rw [hmod, if_pos (by omega), hback]

/-- Settles O48: bit `i` of a rotated word is one bit of the word, the same one for every word. -/
theorem rotateIsLinear : Obligations.RotateIsLinear := by
  intro a h c _ hc
  apply BitVec.eq_of_getLsbD_eq
  intro i hi
  have hbit (x : Word) := getLsbD_rotl32 x (Nat.lt_succ_of_le hc) hi
  simp only [BitVec.getLsbD_xor, hbit]
  split_ifs <;> rfl

/-! ### A processed chunk -/

theorem State.bufByte_sigIncrement_zero (s : State) : s.sigIncrement.bufByte 0 = s.bufByte 0 + 1 :=
  State.bufByte_storeByte_same s 0 _

theorem State.bufByte_sigIncrement_other (s : State) {k : Nat} (hk : k ≠ 0) : s.sigIncrement.bufByte k = s.bufByte k :=
  State.bufByte_storeByte_other s 0 k _ hk

/-- A length that is not 0 is noted (R21, R82). -/
theorem State.noteLength_llast_of_ne_zero {L : BitVec 11} (hL : L ≠ 0) (s : State) :
    (s.noteLength L).llast = L :=
  if_neg hL

/-- The chunk of no bytes is blank (R84). -/
theorem State.ne_zero_of_chunk_not_blank {L : BitVec 11} {s : State} (h : isBlank (s.chunk L.toNat) = false) :
    L ≠ 0 := by
  rintro rfl
  simp at h

theorem State.mixStep_acc_of_short {L : BitVec 11} (hL : L.toNat < 1024) (s : State) :
    (s.mixStep L).acc = mixShort s.acc (s.chunk L.toNat) :=
  if_pos hL

theorem State.mixStep_acc_of_full (s : State) : (s.mixStep 1024).acc = mixFull s.acc (s.chunk 1024) := rfl

/-- The signature words each take the byte of their number, if the chunk has one (R141). -/
theorem State.processChunk_sig_word (L : BitVec 11) (s : State) (i : Fin 4) :
    (s.processChunk L).sig[i] =
      if i.val < min L.toNat 4 then s.sig[i] ^^^ ((s.processChunk L).bufByte i.val).setWidth 32 else s.sig[i] :=
  State.processChunk_sig L s i.val i.isLt

/-- Settles O24: the short path of the mixer writes `acc[0]`, and the CRC `acc[8]`. -/
theorem absorbProcessesAShortChunk : Obligations.AbsorbProcessesAShortChunk := by
  intro L s herr hphase hL hblank
  have hne : L ≠ 0 := State.ne_zero_of_chunk_not_blank hblank
  have hacc (i : Nat) (hi : i < 12) (h8 : i ≠ 8) :
      ((s.noteLength L).processChunk L).acc[i] = (mixShort s.acc (s.chunk L.toNat))[i] :=
    (State.processChunk_acc_other L _ i hi h8).trans (getElem_congr_coll (State.mixStep_acc_of_short hL _))
  refine ⟨_, exec_absorb_of_not_blank herr hphase hL.le hblank, ?slot, State.processChunk_acc_crc L _, ?others,
    s.bufByte_sigIncrement_zero, fun k hk => s.bufByte_sigIncrement_other hk, State.processChunk_sig_word L _,
    State.processChunk_sum L _, rfl, s.noteLength_llast_of_ne_zero hne, hphase, herr, rfl, rfl, rfl, rfl, rfl⟩
  case slot => exact (hacc 0 (by omega) (by omega)).trans (mixShort_zero s.acc _)
  case others =>
    intro i h0 h8
    exact (hacc i.val i.isLt (Fin.val_ne_of_ne h8)).trans (mixShort_other s.acc _ i.val i.isLt (Fin.val_ne_of_ne h0))

/-- Settles O25: the full path of the mixer writes `acc[0..7]`, and the CRC `acc[8]`. -/
theorem absorbProcessesAFullChunk : Obligations.AbsorbProcessesAFullChunk := by
  intro s herr hphase hblank
  have hne : (1024 : BitVec 11) ≠ 0 := by decide
  have hrest := State.processChunk_acc_rest 1024 (s.noteLength 1024)
  refine ⟨_, exec_absorb_of_not_blank herr hphase (by decide) hblank, ?slots, State.processChunk_acc_crc 1024 _,
    hrest 9 _ (by omega), hrest 10 _ (by omega), hrest 11 _ (by omega), s.bufByte_sigIncrement_zero,
    fun k hk => s.bufByte_sigIncrement_other hk, ?sig, State.processChunk_sum 1024 _, rfl,
    s.noteLength_llast_of_ne_zero hne, hphase, herr, rfl, rfl, rfl, rfl, rfl⟩
  case slots =>
    intro i
    rw [State.processChunk_acc_other _ _ i.val (by omega) (by omega), getElem_congr_coll (State.mixStep_acc_of_full _)]
    exact mixFull_slot s.acc _ i.val i.isLt
  case sig => exact fun i => (State.processChunk_sig_word 1024 _ i).trans (if_pos i.isLt)

/-! ### A sequence of processed chunks -/

/-- The bytes that the signature unit reads are those of the chunk after the increment (R141, R145). -/
theorem State.getElem?_bumpFirst_chunk (s : State) (n k : Nat) :
    (bumpFirst (s.chunk n))[k]? = if k < n then some (s.sigIncrement.bufByte k) else none := by
  rw [← State.chunk_sigIncrement]
  split_ifs with hk
  · rw [List.getElem?_eq_getElem (by simpa using hk), State.chunk_getElem]
  · exact List.getElem?_eq_none (by simpa using hk)

theorem sigAfter_singleton_of_some {i : Fin 4} {c : List Byte} {b : Byte} (h : (bumpFirst c)[i.val]? = some b)
    (a : Word) : sigAfter i a [c] = a ^^^ b.setWidth 32 := by
  simp only [sigAfter, List.foldl_cons, List.foldl_nil, h]

theorem sigAfter_singleton_of_none {i : Fin 4} {c : List Byte} (h : (bumpFirst c)[i.val]? = none) (a : Word) :
    sigAfter i a [c] = a := by
  simp only [sigAfter, List.foldl_cons, List.foldl_nil, h]

theorem State.processChunk_sig_eq_sigAfter (L : BitVec 11) (s : State) (i : Fin 4) :
    (s.processChunk L).sig[i] = sigAfter i s.sig[i] [s.chunk L.toNat] := by
  have hbyte := s.getElem?_bumpFirst_chunk L.toNat i.val
  rw [State.processChunk_sig_word]
  by_cases hi : i.val < L.toNat
  · rw [if_pos hi] at hbyte
    rw [if_pos (lt_min hi i.isLt), sigAfter_singleton_of_some hbyte, State.processChunk_bufByte]
  · rw [if_neg hi] at hbyte
    rw [if_neg fun h => hi (lt_min_iff.1 h).1, sigAfter_singleton_of_none hbyte]

/-- The state `t` has absorbed the chunks `cs` from `s` on, none of them blank: the signature has followed them too
(R145), and what no processed chunk writes is unchanged. -/
structure State.AbsorbedAll (cs : List (List Byte)) (s t : State) : Prop extends State.Absorbed cs s t where
  rest_eq : ∀ i (_ : i < 12), 9 ≤ i → t.acc[i] = s.acc[i]
  sig_eq : ∀ i : Fin 4, t.sig[i] = sigAfter i s.sig[i] cs
  phase_eq : t.phase = s.phase
  ecode_eq : t.ecode = s.ecode
  txt_eq : t.txt = s.txt

namespace State.AbsorbedAll

variable {s t u : State} {cs ds : List (List Byte)}

theorem nil (s : State) : AbsorbedAll [] s s :=
  ⟨.nil rfl rfl rfl rfl, fun _ _ _ => rfl, fun _ => rfl, rfl, rfl, rfl⟩

theorem append (h : AbsorbedAll cs s t) (h' : AbsorbedAll ds t u) : AbsorbedAll (cs ++ ds) s u where
  toAbsorbed := h.toAbsorbed.append h'.toAbsorbed
  rest_eq i hi h9 := (h'.rest_eq i hi h9).trans (h.rest_eq i hi h9)
  sig_eq i := by rw [h'.sig_eq, h.sig_eq, sigAfter, sigAfter, sigAfter, List.foldl_append]
  phase_eq := h'.phase_eq.trans h.phase_eq
  ecode_eq := h'.ecode_eq.trans h.ecode_eq
  txt_eq := h'.txt_eq.trans h.txt_eq

/-- Putting a chunk into BUF leaves the registers (R10). -/
theorem of_presents {c : List Byte} (h : s.presents c t) : AbsorbedAll [] s t := by
  have habsorbed := State.Absorbed.of_presents h
  obtain ⟨⟨m, b, r, n, rfl⟩, -⟩ := h
  exact ⟨habsorbed, fun _ _ _ => rfl, fun _ => rfl, rfl, rfl, rfl⟩

theorem noteLength (L : BitVec 11) (s : State) : AbsorbedAll [] s (s.noteLength L) :=
  ⟨.nil rfl rfl rfl rfl, fun _ _ _ => rfl, fun _ => rfl, rfl, rfl, rfl⟩

theorem processChunk {L : BitVec 11} {c : List Byte} (hL : L.toNat = c.length) (hchunk : s.chunk c.length = c) :
    AbsorbedAll [c] s (s.processChunk L) where
  toAbsorbed := .processChunk hL hchunk
  rest_eq := State.processChunk_acc_rest L s
  sig_eq i := by rw [State.processChunk_sig_eq_sigAfter, hL, hchunk]
  phase_eq := State.processChunk_phase L s
  ecode_eq := State.processChunk_ecode L s
  txt_eq := State.processChunk_txt L s

/-- The `ABSORB` of a presented chunk that is not blank (R82). -/
theorem of_exec {c : List Byte} (herr : s.err = false) (hphase : s.phase = .absorb) (hc : processable c)
    (hchunk : s.chunk c.length = c) (hexec : exec (.absorb (BitVec.ofNat 11 c.length)) s = .next t) :
    AbsorbedAll [c] s t := by
  obtain ⟨-, hlen, hblank⟩ := hc
  have hL := toNat_ofNat_length hlen
  rw [exec_absorb_of_not_blank herr hphase (hL.trans_le hlen) (by rw [hL, hchunk, hblank])] at hexec
  cases hexec
  exact (noteLength _ s).append (processChunk hL hchunk)

/-- The induction on the chunks that the host presents. -/
theorem of_absorbs (herr : s.err = false) (hphase : s.phase = .absorb) (hcs : ∀ c ∈ cs, processable c)
    (h : Absorbs s cs t) : AbsorbedAll cs s t := by
  induction h with
  | nil s => exact nil s
  | cons c cs s s1 s2 t hpresents hexec _ ih =>
    obtain ⟨hc, hcs⟩ := List.forall_mem_cons.1 hcs
    have hwritten := of_presents hpresents
    obtain ⟨-, hchunk⟩ := hpresents
    have hone : AbsorbedAll [c] s s2 :=
      hwritten.append (of_exec (hwritten.err_eq.trans herr) (hwritten.phase_eq.trans hphase) hc hchunk hexec)
    exact hone.append (ih (hone.err_eq.trans herr) (hone.phase_eq.trans hphase) hcs)

end State.AbsorbedAll

/-- Settles O35, from what the chunks leave, taken one by one. -/
theorem processedChunksInClosedForm : Obligations.ProcessedChunksInClosedForm := by
  intro cs s t herr hphase hcs habsorbs
  have h := State.AbsorbedAll.of_absorbs herr hphase hcs habsorbs
  exact ⟨h.slot_eq, h.crc_eq, h.rest_eq 9 _ (by omega), h.rest_eq 10 _ (by omega), h.rest_eq 11 _ (by omega), h.sig_eq,
    h.sum_eq, h.pos_eq, h.phase_eq.trans hphase, h.err_eq.trans herr, h.ecode_eq, h.txt_eq⟩

end Sys2Proof.Machine
end

section
/-! PROOFS. The statements of spec/43_checksum.md. -/

namespace Sys2Proof.Machine

/-! ### The byte sum -/

/-- The stepwise reduction of R120 is the addition of bytes itself. -/
theorem byteSum_eq_sum (bytes : List Byte) : byteSum bytes = bytes.sum := List.sum_eq_foldl.symm

theorem byteSum_cons (b : Byte) (bs : List Byte) : byteSum (b :: bs) = b + byteSum bs := by
  rw [byteSum_eq_sum, byteSum_eq_sum, List.sum_cons]

/-- The carry that an increment of `0xFF` loses is a multiple of 256 (R121). -/
theorem byteSum_bumpFirst {bytes : List Byte} (h : bytes ≠ []) : byteSum (bumpFirst bytes) = byteSum bytes + 1 := by
  cases bytes with
  | nil => contradiction
  | cons b bs => rw [bumpFirst, byteSum_cons, byteSum_cons, add_right_comm]

/-- Settles O49, by induction on the bytes: reducing a summand first does not change the sum mod 256. -/
theorem byteSumIsTheSumModulo256 : Obligations.ByteSumIsTheSumModulo256 := by
  intro bytes
  induction bytes with
  | nil => rfl
  | cons b bs ih => rw [byteSum_cons, BitVec.toNat_add, ih, List.map_cons, List.sum_cons, Nat.add_mod_mod]

/-- Settles O50, from O49 and the byte sum of an incremented chunk. -/
theorem incrementAddsOneToTheByteSum : Obligations.IncrementAddsOneToTheByteSum := by
  intro bytes hne
  rw [byteSum_bumpFirst hne, BitVec.toNat_add, byteSumIsTheSumModulo256 bytes]
  exact Nat.mod_add_mod _ _ _

end Sys2Proof.Machine
end

section
/-! PROOFS. The statements of spec/44_crc32.md. -/

namespace Sys2Proof.Machine

/-! ### Two equal chunks -/

theorem crcAfter_twice (a : Word) (c : List Byte) : crcAfter a [c, c] = a := by
  simp only [crcAfter, List.foldl_cons, List.foldl_nil, BitVec.xor_assoc, BitVec.xor_self, BitVec.xor_zero]

/-- Settles O34: the CRC that the first presentation combines into `acc[8]` is taken out by the second. -/
theorem equalChunksCancelInTheCrc : Obligations.EqualChunksCancelInTheCrc := by
  intro c s t herr hphase hc habsorbs
  have hcs : ∀ d ∈ [c, c], processable d := List.forall_mem_cons.2 ⟨hc, List.forall_mem_singleton.2 hc⟩
  exact (State.AbsorbedAll.of_absorbs herr hphase hcs habsorbs).crc_eq.trans (crcAfter_twice _ c)

/-! ### The table form

The steps of a byte are linear in XOR and only shift a word whose low bits are 0; so a word's low byte, by its table entry,
and its other bits, by a shift, may be taken apart. -/

/-- What a step XORs in after the shift: the polynomial, when the bit shifted out was 1 (R130). -/
def crcFeedback (out : Bool) : Word := if out then Config.crcPoly else 0

theorem crcShift_eq (c : Word) : crcShift c = (c >>> 1) ^^^ crcFeedback (c.getLsbD 0) := by
  rw [crcShift, crcFeedback]
  split
  · rfl
  · exact BitVec.xor_zero.symm

theorem crcFeedback_xor (a b : Bool) : crcFeedback (a ^^ b) = crcFeedback a ^^^ crcFeedback b := by
  cases a with
  | false => exact (congrArg crcFeedback (Bool.false_xor b)).trans BitVec.zero_xor.symm
  | true =>
    cases b with
    | false => exact BitVec.xor_zero.symm
    | true => exact BitVec.xor_self.symm

/-- A step is linear: shift and feedback are. -/
theorem crcShift_xor (c d : Word) : crcShift (c ^^^ d) = crcShift c ^^^ crcShift d := by
  rw [crcShift_eq, crcShift_eq, crcShift_eq, BitVec.ushiftRight_xor_distrib, BitVec.getLsbD_xor, crcFeedback_xor]
  ac_rfl

theorem crcShifts_xor (n : Nat) (c d : Word) : crcShifts n (c ^^^ d) = crcShifts n c ^^^ crcShifts n d := by
  induction n generalizing c d with
  | zero => rfl
  | succ n ih => rw [crcShifts, crcShift_xor, ih, crcShifts, crcShifts]

/-- Steps that find no bit set only shift. -/
theorem crcShifts_of_low_zero {n : Nat} {c : Word} (h : ∀ i < n, c.getLsbD i = false) : crcShifts n c = c >>> n := by
  induction n generalizing c with
  | zero => rfl
  | succ n ih =>
    have hlow : ∀ i < n, (c >>> 1).getLsbD i = false := fun i hi => by
      rw [BitVec.getLsbD_ushiftRight, h (1 + i) (by omega)]
    have hstep : crcShift c = c >>> 1 := if_neg (Bool.eq_false_iff.1 (h 0 (by omega)))
    rw [crcShifts, hstep, ih hlow, ← BitVec.shiftRight_add, Nat.add_comm]

/-- A byte has no bits at 8 and above. -/
theorem byte_ushiftRight_eight (b : Byte) : b.setWidth 32 >>> 8 = 0#32 := by
  ext i hi
  simp

/-- Eight steps replace the low byte by its table entry and shift the other bits (R131). -/
theorem crcShifts_eight (c : Word) : crcShifts 8 c = crcTable (c.setWidth 8) ^^^ (c >>> 8) := by
  have hzero : ∀ i < 8, ((c.setWidth 8).setWidth 32 ^^^ c).getLsbD i = false := fun i hi => by
    simp [hi, show i < 32 by omega]
  have hhigh : crcTable (c.setWidth 8) ^^^ crcShifts 8 c = c >>> 8 :=
    calc crcTable (c.setWidth 8) ^^^ crcShifts 8 c
        = crcShifts 8 ((c.setWidth 8).setWidth 32 ^^^ c) := (crcShifts_xor 8 _ c).symm
      _ = ((c.setWidth 8).setWidth 32 ^^^ c) >>> 8 := crcShifts_of_low_zero hzero
      _ = c >>> 8 := by rw [BitVec.ushiftRight_xor_distrib, byte_ushiftRight_eight, BitVec.zero_xor]
  rw [← hhigh, ← BitVec.xor_assoc, BitVec.xor_self, BitVec.zero_xor]

/-- One byte of the bit form is one byte of the table form: it reaches the low byte only. -/
theorem crcByte_eq_table (c : Word) (b : Byte) :
    crcByte c b = crcTable ((c ^^^ b.setWidth 32).setWidth 8) ^^^ (c >>> 8) := by
  rw [crcByte, widen_eq, crcShifts_eight, BitVec.ushiftRight_xor_distrib, byte_ushiftRight_eight, BitVec.xor_zero]

theorem crc32ByTable_eq_crc32 (bytes : List Byte) : crc32ByTable bytes = crc32 bytes := by
  have hbyte : (fun c b => crcTable ((c ^^^ widen b).setWidth 8) ^^^ (c >>> 8)) = crcByte :=
    funext₂ fun c b => (crcByte_eq_table c b).symm
  rw [crc32ByTable, crc32, hbyte]

/-- Settles O51: the two forms agree byte by byte, and the nine entries are computed. -/
theorem crcTableFormIsTheCrc : Obligations.CrcTableFormIsTheCrc :=
  ⟨crc32ByTable_eq_crc32, by decide⟩

end Sys2Proof.Machine
end

section
/-! PROOFS. The statements of spec/45_signature.md. -/

namespace Sys2Proof.Machine

/-! ### What a chunk adds to the signature -/

/-- Bits 31:8 of a word take nothing from a byte that is combined into it (R141). -/
theorem xor_byte_ushiftRight_eight (x : Word) (b : Byte) : (x ^^^ b.setWidth 32) >>> 8 = x >>> 8 := by
  rw [BitVec.ushiftRight_xor_distrib, byte_ushiftRight_eight, BitVec.xor_zero]

theorem State.processChunk_sig_high (L : BitVec 11) (s : State) (i : Fin 4) :
    (s.processChunk L).sig[i] >>> 8 = s.sig[i] >>> 8 := by
  rw [State.processChunk_sig_word]
  split_ifs
  · exact xor_byte_ushiftRight_eight _ _
  · rfl

/-- Settles O33: of all the ways of an `ABSORB`, only a processed chunk reaches the signature, and by a byte per word. -/
theorem onlyLowBitsOfSigReceiveData : Obligations.OnlyLowBitsOfSigReceiveData := by
  intro L s t i h
  cases exec_outcome h with
  | ignored => rfl
  | faults => rfl
  | stops => rfl
  | processes => exact State.processChunk_sig_high L (s.noteLength L) i

/-! ### The finalisation -/

/-- The signature words that `FINAL` leaves, each with the byte of its number if the last chunk had one (R143). -/
theorem State.finalEffect_sig_word (c : Constants) (s : State) (i : Fin 4) :
    (s.finalEffect c).sig[i] =
      if i.val < min s.llast.toNat 4 then s.sig[i] ^^^ (c.k2[i] ^^^ (s.bufByte i.val).setWidth 32) else s.sig[i] :=
  State.sigFinalise_word c s i.val i.isLt

/-- Settles O36: the check of the phase passes, and each register of the effect is one of its lemmas. -/
theorem finalFinalisesAndAssembles : Obligations.FinalFinalisesAndAssembles := by
  intro s herr hphase
  exact ⟨s.finalEffect Config.constants, exec_final_of_open herr hphase, State.finalEffect_sig_word _ s,
    State.finalEffect_acc_count _ s, State.finalEffect_acc_sum _ s, State.finalEffect_acc_sig _ s, rfl,
    fun i hi => State.finalEffect_acc_other _ s i.val hi, rfl, rfl, rfl, rfl, rfl, herr, rfl, rfl, rfl, rfl⟩

/-! ### A single chunk -/

theorem xor_data_cancels (x k b : Word) : x ^^^ b ^^^ (k ^^^ b) = x ^^^ k := by
  rw [BitVec.xor_comm k b, BitVec.xor_assoc, ← BitVec.xor_assoc b b k, BitVec.xor_self, BitVec.zero_xor]

/-- The byte that a processed chunk of at least 4 bytes has combined into a signature word is taken out by the
finalisation, which reads the same byte of BUF (R145). -/
theorem State.finalEffect_processChunk_sig {L : BitVec 11} {s : State} (hL : 4 ≤ L.toNat) (hllast : s.llast = L)
    (c : Constants) (i : Fin 4) : ((s.processChunk L).finalEffect c).sig[i] = s.sig[i] ^^^ c.k2[i] := by
  have hi : i.val < min L.toNat 4 := lt_min (by omega) i.isLt
  rw [State.finalEffect_sig_word, State.processChunk_llast, hllast, if_pos hi, State.processChunk_sig_word, if_pos hi,
    xor_data_cancels]

/-- Settles O38: nothing comes between the chunk and `FINAL` that changes BUF or `llast`. -/
theorem singleChunkCancelsInTheSignature : Obligations.SingleChunkCancelsInTheSignature := by
  intro L s herr hphase h4 hL hblank
  have hllast : (s.noteLength L).llast = L :=
    s.noteLength_llast_of_ne_zero (State.ne_zero_of_chunk_not_blank hblank)
  refine ⟨((s.noteLength L).processChunk L).finalEffect Config.constants, ?_,
    State.finalEffect_processChunk_sig h4 hllast Config.constants⟩
  have hfinal := exec_final_of_open (s := (s.noteLength L).processChunk L) herr (.inl hphase)
  rw [execAll_cons_of_next (exec_absorb_of_not_blank herr hphase hL hblank), execAll_cons_of_next hfinal, execAll]

end Sys2Proof.Machine
end

section
/-! PROOFS. The statements of spec/46_renderer.md. -/

namespace Sys2Proof.Machine

/-! ### The hexadecimal digits (R153) -/

/-- Settles O40: the sixteen entries of the table are the codes of the formula. -/
theorem hexDigitCodes : Obligations.HexDigitCodes := by
  unfold Obligations.HexDigitCodes
  decide

/-- The codes of the characters `0..9` and `a..f`. -/
def IsDigitCode (c : Byte) : Prop :=
  (0x30 ≤ c.toNat ∧ c.toNat ≤ 0x39) ∨ (0x61 ≤ c.toNat ∧ c.toNat ≤ 0x66)

theorem hexDigit_isDigitCode (v : BitVec 4) : IsDigitCode (hexDigit v) := by
  rw [hexDigitCodes v]
  split_ifs with hv
  · left
    bv_omega
  · right
    bv_omega

theorem hexChar_isDigitCode (b : Byte) (second : Bool) : IsDigitCode (hexChar b second) := by
  cases second with
  | false => exact hexDigit_isDigitCode _
  | true => exact hexDigit_isDigitCode _

/-! ### The text (R151, R154, R155) -/

/-- A nibble of a byte of a word is a shift of the word. -/
theorem nibble_of_byte_eq_shift (w : Word) (n : Nat) {m : Nat} (hm : m + 4 ≤ 8) :
    (w.extractLsb' n 8).extractLsb' m 4 = (w >>> (n + m)).setWidth 4 := by
  ext k hk
  have hbit : m + k < 8 := by omega
  simp [hbit, Nat.add_assoc]

/-- Characters `8*i + 2*j` and `8*i + 2*j + 1` are the two of byte `j` of word `i`. -/
theorem renderedText_char_of_byte (acc : Vector Word 12) (i : Fin 9) (j : Fin 4) (b : Fin 2) :
    (renderedText acc)[8 * i.val + 2 * j.val + b.val] =
      hexChar (acc[i.val].extractLsb' (8 * j.val) 8) (b.val == 1) := by
  have hword : (8 * i.val + 2 * j.val + b.val) / 2 / 4 = i.val := by omega
  have hbyte : (8 * i.val + 2 * j.val + b.val) / 2 % 4 = j.val := by omega
  have hchar : (8 * i.val + 2 * j.val + b.val) % 2 = b.val := by omega
  simp only [renderedText_char, hword, hbyte, hchar]

theorem renderedText_high (acc : Vector Word 12) (i : Fin 9) (j : Fin 4) :
    (renderedText acc)[8 * i.val + 2 * j.val] = hexDigit ((acc[i.val] >>> (8 * j.val + 4)).setWidth 4) :=
  (renderedText_char_of_byte acc i j 0).trans (congrArg hexDigit (nibble_of_byte_eq_shift _ _ (by decide)))

theorem renderedText_low (acc : Vector Word 12) (i : Fin 9) (j : Fin 4) :
    (renderedText acc)[8 * i.val + 2 * j.val + 1] = hexDigit ((acc[i.val] >>> (8 * j.val)).setWidth 4) :=
  (renderedText_char_of_byte acc i j 1).trans (congrArg hexDigit (nibble_of_byte_eq_shift _ _ (by decide)))

theorem renderedText_isDigitCode (acc : Vector Word 12) (k : Fin 72) : IsDigitCode (renderedText acc)[k] := by
  rw [Fin.getElem_fin, renderedText_char]
  exact hexChar_isDigitCode _ _

/-- Settles O39: the check of the phase passes, and the effect of `RENDER` writes TXT only. -/
theorem renderWritesTheDigestText : Obligations.RenderWritesTheDigestText := by
  intro s herr hphase
  exact ⟨s.renderText, exec_render_of_final herr hphase,
    fun i j => ⟨renderedText_high s.acc i j, renderedText_low s.acc i j⟩, renderedText_isDigitCode s.acc,
    s.renderText_eq⟩

/-! ### The words that are rendered (R152) -/

/-- In phase FINAL, all that a completed `RENDER` can have done is its effect. -/
theorem eq_renderText_of_exec_render {s s' : State} (herr : s.err = false) (hphase : s.phase = .final)
    (h : exec .render s = .next s') : s' = s.renderText := by
  rw [exec_render_of_final herr hphase] at h
  injection h with h
  exact h.symm

/-- Settles O42: no character of the text is of `acc[9]` to `acc[11]`. -/
theorem textDependsOnTheFirstNineWordsOnly : Obligations.TextDependsOnTheFirstNineWordsOnly := by
  intro s t s' t' hs ht hps hpt hacc hs' ht'
  rw [eq_renderText_of_exec_render hs hps hs', eq_renderText_of_exec_render ht hpt ht', State.renderText_txt,
    State.renderText_txt]
  exact renderedText_congr fun i hi => hacc ⟨i, hi⟩

end Sys2Proof.Machine
end

section
/-! PROOFS. The statements of spec/60_exceptions.md. -/

namespace Sys2Proof.Machine

/-! ### Commands that complete -/

/-- Settles O7: the next state is the effect behind its checks. -/
theorem everyCommandCompletes : Obligations.EveryCommandCompletes := fun i s => ⟨_, exec_eq i s⟩

/-! ### The halted engine (R164, R165) -/

/-- A halted engine ignores every word, legal or not (R164). -/
theorem writeCommand_of_err {s : State} (herr : s.err = true) (w : Word) : writeCommand w s = .next s := by
  cases hd : decode w with
  | ok i => rw [writeCommand_ok hd, exec_of_err herr]
  | error e => rw [writeCommand_error hd, illegalCommand, if_pos herr]

/-- Settles O13: a step only takes the ignored access off the queue. -/
theorem haltedEngineIgnoresCommands : Obligations.HaltedEngineIgnoresCommands := by
  refine ⟨fun i s herr => exec_of_err herr, fun w s rest herr hbus => ?_⟩
  rw [step_command hbus, writeCommand_of_err (s := s.takeAccess rest) herr]
  rfl

/-- Settles O14, by what a step can do: a word is ignored, and the other accesses leave the engine alone. -/
theorem onlyHardwareResetClearsTheFault : Obligations.OnlyHardwareResetClearsTheFault := by
  intro s s' herr hstep
  obtain ⟨-, rfl⟩ | ⟨rest, hbus, -⟩ | ⟨w, rest, -, hw⟩ | ⟨a, rest, -, ha, hacc⟩ := step_next hstep
  · exact .inl ⟨herr, rfl⟩
  · exact .inr ⟨rest, hbus⟩
  · rw [writeCommand_of_err (s := s.takeAccess rest) herr] at hw
    cases hw
    exact .inl ⟨herr, rfl⟩
  · obtain rfl | ⟨r, rfl⟩ | ⟨k, v, rfl⟩ := hostAccess_next_of_not_drivesEngine ha hacc <;> exact .inl ⟨herr, rfl⟩

/-! ### Which fault a command reports (R161, R162) -/

/-- Settles O15: check 3 fails before the phase is looked at. -/
theorem absorbTooLongRaisesBadLength : Obligations.AbsorbTooLongRaisesBadLength :=
  fun _ _ herr hL => exec_absorb_of_too_long herr hL

/-- Behind the checks, a failed length hides a failed phase. -/
theorem gate_err_or_fault {ok : Bool} {legal : Phase → Bool} {f : State → State} {s : State} (herr : s.err = false)
    (heffect : (f s).err = s.err) :
    (gate ok legal f s).err = false ∨ gate ok legal f s = s.raiseFault (if ok then .badPhase else .badLength) := by
  obtain ⟨hhalted, -⟩ | ⟨-, rfl, hg⟩ | ⟨-, rfl, -, hg⟩ | ⟨-, -, -, hg⟩ := gate_cases ok legal f s
  · simp [herr] at hhalted
  · exact .inr hg
  · exact .inr hg
  · exact .inl (by rw [hg, heffect, herr])

theorem State.absorbEffect_err (L : BitVec 11) (s : State) : (s.absorbEffect L).err = s.err := by
  obtain ⟨-, he⟩ | ⟨-, -, he⟩ | ⟨-, -, he⟩ := absorbEffect_cases L s <;> rw [he] <;> rfl

/-- The fault a command reports is the same in every phase in which it faults: only the length of an `ABSORB` chooses. -/
theorem exec_err_or_fault {i : Instr} {s t : State} (herr : s.err = false) (h : exec i s = .next t) :
    t.err = false ∨ t = s.raiseFault (idleFault i) := by
  rw [exec_eq] at h
  injection h with h
  subst h
  cases i with
  | init => exact gate_err_or_fault herr rfl
  | absorb L => exact gate_err_or_fault herr (s.absorbEffect_err L)
  | eos => exact gate_err_or_fault herr (s.absorbEffect_err 0)
  | final => exact gate_err_or_fault herr rfl
  | render => exact gate_err_or_fault herr s.renderText_err

/-- BAD_LENGTH is the fault of an `ABSORB` that is too long; no other command has one but BAD_PHASE (R161). -/
theorem idleFault_cases (i : Instr) :
    (idleFault i = .badLength ∧ ∃ L, i = .absorb L ∧ 1024 < L.toNat) ∨
    (idleFault i = .badPhase ∧ ∀ L, i = .absorb L → L.toNat ≤ 1024) := by
  cases i with
  | absorb L =>
    by_cases hL : L.toNat ≤ 1024
    · refine .inr ⟨if_pos ((lengthOk_iff L).2 hL), fun M hM => ?_⟩
      cases hM
      exact hL
    · exact .inl ⟨if_neg (mt (lengthOk_iff L).1 hL), L, rfl, Nat.lt_of_not_le hL⟩
  | init => exact .inr ⟨rfl, nofun⟩
  | eos => exact .inr ⟨rfl, nofun⟩
  | final => exact .inr ⟨rfl, nofun⟩
  | render => exact .inr ⟨rfl, nofun⟩

/-- The one fault that a word written to CMD can report, if it faults (R162). -/
def reportedFault (w : Word) : CmdFault :=
  match decode w with
  | .ok i => idleFault i
  | .error _ => .illegalCmd

theorem reportedFault_ok {w : Word} {i : Instr} (hd : decode w = .ok i) : reportedFault w = idleFault i := by
  simp only [reportedFault, hd]

theorem reportedFault_error {w : Word} {e : DecodeReject} (hd : decode w = .error e) :
    reportedFault w = .illegalCmd := by
  simp only [reportedFault, hd]

/-- A word that is no command always faults (R80 check 2). -/
theorem writeCommand_of_illegal {w : Word} {e : DecodeReject} {s : State} (herr : s.err = false)
    (hd : decode w = .error e) : writeCommand w s = .next (s.raiseFault .illegalCmd) := by
  rw [writeCommand_error hd, illegalCommand, herr]
  rfl

theorem writeCommand_err_or_fault {w : Word} {s t : State} (herr : s.err = false) (h : writeCommand w s = .next t) :
    t.err = false ∨ t = s.raiseFault (reportedFault w) := by
  cases hd : decode w with
  | ok i =>
    rw [writeCommand_ok hd] at h
    rw [reportedFault_ok hd]
    exact exec_err_or_fault herr h
  | error e =>
    rw [writeCommand_of_illegal herr hd] at h
    rw [reportedFault_error hd]
    injection h with h
    exact .inr h.symm

/-- In phase IDLE every word but `INIT` faults (R80). -/
theorem writeCommand_of_idle {w : Word} {s : State} (herr : s.err = false) (hphase : s.phase = .idle)
    (hw : decode w ≠ .ok .init) : writeCommand w s = .next (s.raiseFault (reportedFault w)) := by
  cases hd : decode w with
  | ok i =>
    rw [writeCommand_ok hd, reportedFault_ok hd]
    exact exec_of_idle (fun hi => hw (hi ▸ hd)) herr hphase
  | error e => rw [writeCommand_of_illegal herr hd, reportedFault_error hd]

/-! ### STATUS after a fault (R163) -/

/-- Settles O18: the fields of STATUS with `err` = 1, for the three codes in the four phases. -/
theorem statusAfterAFault : Obligations.StatusAfterAFault := by
  intro f s
  show (0#24 ++ f.code ++ 0#1 ++ 1#1 ++ s.phase.code : BitVec (24 + 4 + 1 + 1 + 2)) = _
  cases f <;> cases s.phase <;> rfl

/-- In phase IDLE, STATUS after a fault shows no more than the code and ERR. -/
theorem statusWord_raiseFault_of_idle {s : State} (hphase : s.phase = .idle) (f : CmdFault) :
    (s.raiseFault f).statusWord = (f.code.setWidth 32 <<< 4) ||| 0x4#32 := by
  rw [statusAfterAFault, hphase, BitVec.or_zero]

/-! ### The first cause (R162) -/

/-- Which words report which fault, in the order of the checks. -/
theorem reportedFault_cases (w : Word) :
    ((reportedFault w).code = 1 ∧ ∀ i, decode w ≠ .ok i) ∨
    ((reportedFault w).code = 2 ∧ ∃ L, decode w = .ok (.absorb L) ∧ 1024 < L.toNat) ∨
    ((reportedFault w).code = 3 ∧ ∃ i, decode w = .ok i ∧ ∀ L, i = .absorb L → L.toNat ≤ 1024) := by
  cases hd : decode w with
  | error e => exact .inl ⟨by rw [reportedFault_error hd]; rfl, nofun⟩
  | ok i =>
    rw [reportedFault_ok hd]
    obtain ⟨hf, L, rfl, hL⟩ | ⟨hf, hL⟩ := idleFault_cases i
    · exact .inr (.inl ⟨by rw [hf]; rfl, L, rfl, hL⟩)
    · exact .inr (.inr ⟨by rw [hf]; rfl, i, rfl, hL⟩)

theorem step_status_of_idle {w : Word} {s : State} {rest : List HostAccess} (herr : s.err = false)
    (hphase : s.phase = .idle) (hw : decode w ≠ .ok .init) (hbus : s.bus = .write32 0x400 w :: rest) :
    ∃ t, step s = .next t ∧ t.statusWord = ((reportedFault w).code.setWidth 32 <<< 4) ||| 0x4#32 :=
  ⟨_, (step_command hbus).trans (writeCommand_of_idle herr hphase hw),
    statusWord_raiseFault_of_idle (s := s.takeAccess rest) hphase _⟩

/-- Settles O17: a word has one fault that it can report, and the rule's three words are none of `INIT`. -/
theorem firstCauseIsReported : Obligations.FirstCauseIsReported := by
  refine ⟨fun w s rest herr hbus => ?_, fun s rest herr hphase => ⟨?_, ?_, ?_⟩⟩
  · have herr' : (s.takeAccess rest).err = false := herr
    obtain ⟨t, ht⟩ := writeCommand_completes w (s.takeAccess rest)
    refine ⟨t, (step_command hbus).trans ht, fun hfault => ?_, fun hnone => ?_, fun L hd hL => ?_⟩
    · obtain hok | rfl := writeCommand_err_or_fault herr' ht
      · simp [hok] at hfault
      · exact reportedFault_cases w
    · cases hd : decode w with
      | ok i => exact absurd hd (hnone i)
      | error e =>
        rw [writeCommand_of_illegal herr' hd] at ht
        cases ht
        rfl
    · rw [writeCommand_ok hd, exec_absorb_of_too_long herr' hL] at ht
      cases ht
      rfl
  · exact step_status_of_idle herr hphase (by decide)
  · exact step_status_of_idle herr hphase (by decide)
  · exact step_status_of_idle herr hphase (by decide)

end Sys2Proof.Machine
end
